-- ==== Sys2Proof/Word.lean ====
section
/-! DEFINITION. The two word types of the block (00_scope R8): a byte (`u8`) and an address (`u16`).
Every bit-field helper is in Machine/Bits.lean. -/

namespace Sys2Proof

/-- `u8` of R8: a data value, a register other than `PC`, a memory byte. -/
abbrev Byte := BitVec 8

/-- `u16` of R8: the program counter and every memory address (R54). -/
abbrev Addr := BitVec 16

end Sys2Proof
end

