-- ==== Sys2Proof/Machine/Bits.lean ====
section
/-! DEFINITION. Bit fields, byte order and extension (00_scope R8, 20_memory R57). -/

namespace Sys2Proof

/-- `lo(w) = w[7:0]` (R8). -/
def lo (w : Addr) : Byte := w.setWidth 8

/-- `hi(w) = w[15:8]` (R8); the page of an address (R11). -/
def hi (w : Addr) : Byte := (w >>> 8).setWidth 8

/-- `{h, l} = h * 256 + l` (R8). -/
def cat (h l : Byte) : Addr := h ++ l

/-- `zext_16` (R8). -/
def zext16 (b : Byte) : Addr := b.setWidth 16

/-- `sext_16` (R8). -/
def sext16 (b : Byte) : Addr := b.signExtend 16

/-- `v[7]` of a byte, the sign bit (R8). -/
def bit7 (v : Byte) : Bool := v.getLsbD 7

/-- `v[6]` of a byte. -/
def bit6 (v : Byte) : Bool := v.getLsbD 6

/-- `v[0]` of a byte. -/
def bit0 (v : Byte) : Bool := v.getLsbD 0

/-- A `bool` read as 0 or 1 (R8). -/
def bitNat (b : Bool) : Nat := if b then 1 else 0

/-- Byte `k` of a number laid out with the least significant byte first. -/
def byteAt (w k : Nat) : Byte := BitVec.ofNat 8 (w >>> (8 * k))

end Sys2Proof
end

