-- ==== Sys2Proof/Config.lean ====
section
/-! DEFINITION. The one implementation parameter the spec leaves open (00_scope R6, decision D1).
There is no free value in this model: the spec leaves no result of an instruction open (R133). -/

namespace Sys2Proof

/-- `VARIANT` of R6: the original MOS 6502 behaviour, or that of the 65C02. -/
inductive Variant where
  | nmos
  | cmos
deriving DecidableEq, Repr

end Sys2Proof
end

