-- ==== Sys2Proof/Machine/ResetValues.lean ====
section
/-! DEFINITION. The value State.reset gives the open parameter. -/

namespace Sys2Proof.Machine

/-- DESIGN CHOICE (log entry 1), unsafe for a statement about State.reset alone: the spec leaves `VARIANT` open (R6, D1). `CMOS`
decodes every row of the opcode table. Every other statement ranges over both values. -/
def resetVariant : Variant := .cmos

end Sys2Proof.Machine
end

