-- ==== Sys2Proof/Syntax.lean ====
section
/-! DEFINITION. The instruction set as data (30_encoding). A pair (mnemonic, addressing mode) that is no row of the opcode
table cannot be written down (R135): each mnemonic's argument ranges over the modes the table gives it. -/

namespace Sys2Proof

/-- `Opcode` of R10 and R85: the 56 common mnemonics, the 8 that `CMOS` adds, and the marker `INVALID`. -/
inductive Opcode where
  | adc | and | asl | bcc | bcs | beq | bit | bmi | bne | bpl | bra | brk | bvc
  | bvs | clc | cld | cli | clv | cmp | cpx | cpy | dec | dex | dey | eor | inc
  | inx | iny | jmp | jsr | lda | ldx | ldy | lsr | nop | ora | pha | php | phx
  | phy | pla | plp | plx | ply | rol | ror | rti | rts | sbc | sec | sed | sei
  | sta | stx | sty | stz | tax | tay | trb | tsb | tsx | txa | txs | tya | invalid
deriving DecidableEq, Repr

/-- `AddressingMode` of R10: the sixteen modes of R81. -/
inductive Mode where
  | imm | zp | zpx | zpy | izx | izy | izp | abs | abx | aby | ind | iax | acc | imp | stk | rel
deriving DecidableEq, Repr

/-- The modes that give an effective address, with their operand bytes assembled as R82 says. -/
inductive AddrMode where
  | zp (b : Byte) | zpx (b : Byte) | zpy (b : Byte)
  | izx (b : Byte) | izy (b : Byte) | izp (b : Byte)
  | abs (w : Addr) | abx (w : Addr) | aby (w : Addr)
  | ind (w : Addr) | iax (w : Addr)
  | rel (d : Byte)
deriving DecidableEq, Repr

/-- The operand of any instruction: R113's four kinds, with `IMP` and `STK` kept apart (R129). -/
inductive Operand where
  | imm (b : Byte) | acc | imp | stk | mem (a : AddrMode)
deriving DecidableEq, Repr

/-- A source operand: immediate, or in memory under one of the modes `μ`. -/
inductive Src (μ : Type) where
  | imm (b : Byte)
  | mem (m : μ)
deriving DecidableEq, Repr

/-- A destination that is read, changed and written back: the accumulator, or a byte of memory. -/
inductive Rmw (μ : Type) where
  | acc
  | mem (m : μ)
deriving DecidableEq, Repr

/-- Memory modes of `ADC AND CMP EOR LDA ORA SBC STA`. -/
inductive AccMem where
  | zp (b : Byte) | zpx (b : Byte) | abs (w : Addr) | abx (w : Addr) | aby (w : Addr)
  | izx (b : Byte) | izy (b : Byte) | izp (b : Byte)
deriving DecidableEq, Repr

/-- Memory modes of `ASL LSR ROL ROR INC DEC LDY BIT STZ`. -/
inductive XMem where
  | zp (b : Byte) | zpx (b : Byte) | abs (w : Addr) | abx (w : Addr)
deriving DecidableEq, Repr

/-- Memory modes of `LDX`. -/
inductive LdxMem where
  | zp (b : Byte) | zpy (b : Byte) | abs (w : Addr) | aby (w : Addr)
deriving DecidableEq, Repr

/-- Memory modes of `STX`. -/
inductive StxMem where
  | zp (b : Byte) | zpy (b : Byte) | abs (w : Addr)
deriving DecidableEq, Repr

/-- Memory modes of `STY`. -/
inductive StyMem where
  | zp (b : Byte) | zpx (b : Byte) | abs (w : Addr)
deriving DecidableEq, Repr

/-- Memory modes of `CPX CPY TRB TSB`. -/
inductive ZpAbs where
  | zp (b : Byte) | abs (w : Addr)
deriving DecidableEq, Repr

/-- Modes of `JMP`. -/
inductive JmpMem where
  | abs (w : Addr) | ind (w : Addr) | iax (w : Addr)
deriving DecidableEq, Repr

/-- The instruction as decoded, operand bytes included: one constructor per mnemonic of spec/opcode_table.json, one
form of its argument per row. Each docstring names the rule of its meaning. -/
inductive Instr where
  /-- `ADC`, R185. -/
  | adc (src : Src AccMem)
  /-- `AND`, R187. -/
  | and (src : Src AccMem)
  /-- `ASL`, R217. -/
  | asl (dst : Rmw XMem)
  /-- `BCC`, R245. -/
  | bcc (d : Byte)
  /-- `BCS`, R246. -/
  | bcs (d : Byte)
  /-- `BEQ`, R248. -/
  | beq (d : Byte)
  /-- `BIT`, R193. -/
  | bit (src : Src XMem)
  /-- `BMI`, R242. -/
  | bmi (d : Byte)
  /-- `BNE`, R247. -/
  | bne (d : Byte)
  /-- `BPL`, R241. -/
  | bpl (d : Byte)
  /-- `BRA`, R249. -/
  | bra (d : Byte)
  /-- `BRK`, R290. -/
  | brk
  /-- `BVC`, R243. -/
  | bvc (d : Byte)
  /-- `BVS`, R244. -/
  | bvs (d : Byte)
  /-- `CLC`, R278. -/
  | clc
  /-- `CLD`, R282. -/
  | cld
  /-- `CLI`, R280. -/
  | cli
  /-- `CLV`, R284. -/
  | clv
  /-- `CMP`, R190. -/
  | cmp (src : Src AccMem)
  /-- `CPX`, R191. -/
  | cpx (src : Src ZpAbs)
  /-- `CPY`, R192. -/
  | cpy (src : Src ZpAbs)
  /-- `DEC`, R212. -/
  | dec (dst : Rmw XMem)
  /-- `DEX`, R215. -/
  | dex
  /-- `DEY`, R216. -/
  | dey
  /-- `EOR`, R189. -/
  | eor (src : Src AccMem)
  /-- `INC`, R211. -/
  | inc (dst : Rmw XMem)
  /-- `INX`, R213. -/
  | inx
  /-- `INY`, R214. -/
  | iny
  /-- `JMP`, R250. -/
  | jmp (t : JmpMem)
  /-- `JSR`, R251. -/
  | jsr (w : Addr)
  /-- `LDA`, R150. -/
  | lda (src : Src AccMem)
  /-- `LDX`, R151. -/
  | ldx (src : Src LdxMem)
  /-- `LDY`, R152. -/
  | ldy (src : Src XMem)
  /-- `LSR`, R218. -/
  | lsr (dst : Rmw XMem)
  /-- `NOP`, R291. -/
  | nop
  /-- `ORA`, R188. -/
  | ora (src : Src AccMem)
  /-- `PHA`, R270. -/
  | pha
  /-- `PHP`, R271. -/
  | php
  /-- `PHX`, R274. -/
  | phx
  /-- `PHY`, R275. -/
  | phy
  /-- `PLA`, R272. -/
  | pla
  /-- `PLP`, R273. -/
  | plp
  /-- `PLX`, R276. -/
  | plx
  /-- `PLY`, R277. -/
  | ply
  /-- `ROL`, R219. -/
  | rol (dst : Rmw XMem)
  /-- `ROR`, R220. -/
  | ror (dst : Rmw XMem)
  /-- `RTI`, R253. -/
  | rti
  /-- `RTS`, R252. -/
  | rts
  /-- `SBC`, R186. -/
  | sbc (src : Src AccMem)
  /-- `SEC`, R279. -/
  | sec
  /-- `SED`, R283. -/
  | sed
  /-- `SEI`, R281. -/
  | sei
  /-- `STA`, R153. -/
  | sta (m : AccMem)
  /-- `STX`, R154. -/
  | stx (m : StxMem)
  /-- `STY`, R155. -/
  | sty (m : StyMem)
  /-- `STZ`, R156. -/
  | stz (m : XMem)
  /-- `TAX`, R157. -/
  | tax
  /-- `TAY`, R158. -/
  | tay
  /-- `TRB`, R194. -/
  | trb (m : ZpAbs)
  /-- `TSB`, R195. -/
  | tsb (m : ZpAbs)
  /-- `TSX`, R161. -/
  | tsx
  /-- `TXA`, R159. -/
  | txa
  /-- `TXS`, R162. -/
  | txs
  /-- `TYA`, R160. -/
  | tya
  /-- `INVALID`, R292. -/
  | invalid (b : Byte)
deriving DecidableEq, Repr

end Sys2Proof
end

