-- ==== Sys2Proof/Machine/State.lean ====
section
/-! DEFINITION. The state of the block and of the memory it is attached to (10_state R20, R44), as plain data. -/

namespace Sys2Proof.Machine

/-- `SR`: eight independent flags (R28). `u` (Ignored) and `b` (Break) are stored bits like the others (R35, C2). -/
structure Flags where
  n : Bool
  v : Bool
  u : Bool
  b : Bool
  d : Bool
  i : Bool
  z : Bool
  c : Bool
deriving DecidableEq, Repr

/-- The result record of one `step` (R112). -/
structure StepResult where
  /-- `cycles_spent` (R350). -/
  cycles : Nat
  /-- 1 exactly when the opcode byte decoded to `INVALID` (R112, R312). -/
  invalid : Bool
  opcode : Opcode
  mode : Mode
deriving DecidableEq, Repr

/-- The memory: `(address, byte)` pairs with strictly rising addresses below 65536 and no byte 0, which is what an unlisted
address reads as, the memory being zero at creation (R44, R68). -/
abbrev Memory := List Host.Cell

/-- The block, its memory and its parameter. -/
structure State where
  /-- `VARIANT` (R6): a parameter, written by no step and by no reset; in the state so that every statement over all states
  is a statement for both values (log entry 1). -/
  variant : Variant
  /-- `PC` (R24). -/
  pc : Addr
  /-- `AC` (R21). -/
  ac : Byte
  /-- `X` (R22). -/
  x : Byte
  /-- `Y` (R22). -/
  y : Byte
  /-- `SP` (R23). -/
  sp : Byte
  /-- `SR` (R28). -/
  sr : Flags
  /-- `CYC` (R37). -/
  cyc : Nat
  /-- The memory (R44). -/
  mem : Memory
  /-- The result record of the last step, an output that no step reads (R39, R112, log entry 2); none when no step has been
  made since reset (R342). -/
  out : Option StepResult
deriving DecidableEq, Repr

/-- The block has no fault (R310, R311): nobody raises one. -/
inductive Fault where
deriving DecidableEq, Repr

/-- Why a step has no meaning. -/
inductive Refusal where
  /-- Raised by no arm of `exec`: every instruction of the table has its meaning. It would be safe: the run stops. -/
  | notModelled (mnemonic : String)
deriving DecidableEq, Repr

/-- The status flags after reset: `I`, `B`, `U` are 1, the others 0 (R43, R340). -/
def Flags.reset : Flags :=
  { n := false, v := false, u := true, b := true, d := false, i := true, z := false, c := false }

/-- The machine right after reset, its memory as created (R43, R68): `PC` is the word at 0xFFFC, which is 0 there. -/
def State.reset : State :=
  { variant := resetVariant, pc := 0x0000, ac := 0x00, x := 0x00, y := 0x00, sp := 0xFF
    sr := Flags.reset, cyc := 0, mem := [], out := none }

end Sys2Proof.Machine
end

