-- ==== Sys2Proof/Machine/Flags.lean ====
section
/-! DEFINITION. The status flags (block `status_flag_unit`): single flags, the packed byte, and the flag computations of the
arithmetic (10_state R28 to R36). -/

namespace Sys2Proof.Machine

/-- The names of the flags (R28). -/
inductive Flag where
  | n | v | u | b | d | i | z | c
deriving DecidableEq, Repr

/-- `get_flag` (R31). -/
def Flags.get (f : Flags) : Flag → Bool
  | .n => f.n
  | .v => f.v
  | .u => f.u
  | .b => f.b
  | .d => f.d
  | .i => f.i
  | .z => f.z
  | .c => f.c

/-- `set_flag`: the named flag and nothing else (R31). -/
def Flags.set (f : Flags) (name : Flag) (val : Bool) : Flags :=
  match name with
  | .n => { f with n := val }
  | .v => { f with v := val }
  | .u => { f with u := val }
  | .b => { f with b := val }
  | .d => { f with d := val }
  | .i => { f with i := val }
  | .z => { f with z := val }
  | .c => { f with c := val }

/-- `update_zero_negative` (R32). -/
def Flags.updateZeroNegative (f : Flags) (value : Byte) : Flags :=
  (f.set .z (value == 0)).set .n (bit7 value)

/-- `pack_sr`: bit 7 is `N`, then `V U B D I Z`, bit 0 is `C` (R29, R33). -/
def Flags.pack (f : Flags) : Byte :=
  BitVec.ofNat 8
    (bitNat f.n * 0x80 + bitNat f.v * 0x40 + bitNat f.u * 0x20 + bitNat f.b * 0x10 + bitNat f.d * 0x08 +
      bitNat f.i * 0x04 + bitNat f.z * 0x02 + bitNat f.c * 0x01)

/-- `unpack_sr`: all eight flags, literally (R34). -/
def Flags.unpack (b : Byte) : Flags :=
  { n := b.getLsbD 7, v := b.getLsbD 6, u := b.getLsbD 5, b := b.getLsbD 4
    d := b.getLsbD 3, i := b.getLsbD 2, z := b.getLsbD 1, c := b.getLsbD 0 }

/-- The byte `PHP` and `BRK` push: bits 5 and 4 forced to 1 whatever the live flags (R33, R35). -/
def Flags.pushed (f : Flags) : Byte := f.pack ||| 0x30

/-- The overflow flag of an addition: the operands agree in bit 7 and the result does not (R180). -/
def overflow (a m r : Byte) : Bool := ((a ^^^ r) &&& (m ^^^ r) &&& 0x80) != 0

end Sys2Proof.Machine
end

