-- ==== Sys2Proof/Machine/Alu.lean ====
section
/-! DEFINITION. The pure functions of the block `alu_6502` (42 R180 to R184, 43 R210). -/

namespace Sys2Proof.Machine

/-- The result byte and the four flags of an addition or subtraction. -/
structure AluResult where
  r : Byte
  c : Bool
  v : Bool
  z : Bool
  n : Bool
deriving DecidableEq, Repr

/-- `adc_bin` (R180). -/
def adcBin (a m : Byte) (c : Bool) : AluResult :=
  let t := a.toNat + m.toNat + bitNat c
  let r := BitVec.ofNat 8 t
  { r := r, c := decide (256 ≤ t), v := overflow a m r, z := r == 0, n := bit7 r }

/-- `sbc_bin`: addition of the one's complement (R181). -/
def sbcBin (a m : Byte) (c : Bool) : AluResult := adcBin a (m ^^^ 0xFF) c

/-- `a & 0x0F` as a number. -/
def lowDigit (a : Byte) : Nat := a.toNat % 16

/-- `a & 0xF0` as a number. -/
def highPart (a : Byte) : Nat := a.toNat / 16 * 16

/-- The sum of the low digits after its decimal adjust (R182, the first two lines). -/
def adcDecLow (a m : Byte) (c : Bool) : Nat :=
  let al := lowDigit a + lowDigit m + bitNat c
  if 0x0A ≤ al then (al + 0x06) % 16 + 0x10 else al

/-- `adc_dec` (R182; log entry 4). -/
def adcDec (a m : Byte) (c : Bool) (variant : Variant) : AluResult :=
  let t := highPart a + highPart m + adcDecLow a m c
  let pre := BitVec.ofNat 8 t
  let t' := if 0xA0 ≤ t then t + 0x60 else t
  let r := BitVec.ofNat 8 t'
  { r := r
    c := decide (0x100 ≤ t')
    v := overflow a m pre
    z := match variant with
      | .nmos => (a.toNat + m.toNat + bitNat c) % 256 == 0
      | .cmos => r == 0
    n := match variant with
      | .nmos => bit7 pre
      | .cmos => bit7 r }

/-- The difference of the low digits with the borrow in, before any adjust (R183). -/
def sbcDecLow (a m : Byte) (c : Bool) : Int :=
  (lowDigit a : Int) - (lowDigit m : Int) + (bitNat c : Int) - 1

/-- The result byte of `sbc_dec` under `NMOS` (R183); `& 0x0F` of a negative number is its residue modulo 16 (R8). -/
def sbcDecNmos (a m : Byte) (c : Bool) : Byte :=
  let al := sbcDecLow a m c
  let al := if al < 0 then (al - 0x06) % 16 - 0x10 else al
  let t := (highPart a : Int) - (highPart m : Int) + al
  BitVec.ofInt 8 (if t < 0 then t - 0x60 else t)

/-- The result byte of `sbc_dec` under `CMOS` (R183). -/
def sbcDecCmos (a m : Byte) (c : Bool) : Byte :=
  let al := sbcDecLow a m c
  let t := (a.toNat : Int) - (m.toNat : Int) + (bitNat c : Int) - 1
  let t := if t < 0 then t - 0x60 else t
  BitVec.ofInt 8 (if al < 0 then t - 0x06 else t)

/-- `sbc_dec` (R183; log entry 4): the flags of the binary subtraction, but for `Z` and `N` under `CMOS`. -/
def sbcDec (a m : Byte) (c : Bool) (variant : Variant) : AluResult :=
  let bin := sbcBin a m c
  match variant with
  | .nmos => { bin with r := sbcDecNmos a m c }
  | .cmos =>
    let r := sbcDecCmos a m c
    { bin with r := r, z := r == 0, n := bit7 r }

/-- The addition `ADC` performs: decimal when `D` is set (R185). -/
def adcResult (variant : Variant) (d : Bool) (a m : Byte) (c : Bool) : AluResult :=
  if d then adcDec a m c variant else adcBin a m c

/-- The subtraction `SBC` performs: decimal when `D` is set (R186). -/
def sbcResult (variant : Variant) (d : Bool) (a m : Byte) (c : Bool) : AluResult :=
  if d then sbcDec a m c variant else sbcBin a m c

/-- The flags of an addition or subtraction written to `SR` (R185, R186). -/
def Flags.withAlu (f : Flags) (q : AluResult) : Flags :=
  (((f.set .c q.c).set .v q.v).set .z q.z).set .n q.n

/-- The flags of `compare(reg, m)` written to `SR` (R184): `C` is `reg >= m` unsigned, `Z` equality, `N` bit 7 of the
difference. -/
def Flags.withCompare (f : Flags) (reg m : Byte) : Flags :=
  ((f.set .c (decide (m.toNat ≤ reg.toNat))).set .z (reg == m)).set .n (bit7 (reg - m))

/-- A one-bit shift: result and bit shifted out (R210). -/
structure ShiftResult where
  r : Byte
  out : Bool
deriving DecidableEq, Repr

/-- `asl` (R210). -/
def aslByte (v : Byte) : ShiftResult := { r := v <<< 1, out := bit7 v }

/-- `lsr` (R210). -/
def lsrByte (v : Byte) : ShiftResult := { r := v >>> 1, out := bit0 v }

/-- `rol` (R210). -/
def rolByte (v : Byte) (cin : Bool) : ShiftResult :=
  { r := (v <<< 1) ||| BitVec.ofNat 8 (bitNat cin), out := bit7 v }

/-- `ror` (R210). -/
def rorByte (v : Byte) (cin : Bool) : ShiftResult :=
  { r := (v >>> 1) ||| BitVec.ofNat 8 (bitNat cin * 0x80), out := bit0 v }

/-- The flags of a shift or rotate: `C` the bit shifted out, then `Z` and `N` of the result (R217 to R220). -/
def Flags.withShift (f : Flags) (q : ShiftResult) : Flags :=
  (f.set .c q.out).updateZeroNegative q.r

end Sys2Proof.Machine
end

