-- ==== Sys2Proof/WellFormed.lean ====
section
/-! DEFINITION. Which instructions exist under which `VARIANT` (30_encoding R86, R88). -/

namespace Sys2Proof

/-- The 27 opcode bytes that are valid only when `VARIANT = CMOS` (R86, R89). -/
def cmosCodes : List Byte :=
  [0x04, 0x0C, 0x12, 0x14, 0x1A, 0x1C, 0x32, 0x34, 0x3A, 0x3C, 0x52, 0x5A, 0x64, 0x72] ++
  [0x74, 0x7A, 0x7C, 0x80, 0x89, 0x92, 0x9C, 0x9E, 0xB2, 0xD2, 0xDA, 0xF2, 0xFA]

/-- The 78 opcode bytes that are invalid under both variants (R86, R88, R89). -/
def invalidCodes : List Byte :=
  [0x02, 0x03, 0x07, 0x0B, 0x0F, 0x13, 0x17, 0x1B, 0x1F, 0x22, 0x23, 0x27, 0x2B, 0x2F] ++
  [0x33, 0x37, 0x3B, 0x3F, 0x42, 0x43, 0x44, 0x47, 0x4B, 0x4F, 0x53, 0x54, 0x57, 0x5B] ++
  [0x5C, 0x5F, 0x62, 0x63, 0x67, 0x6B, 0x6F, 0x73, 0x77, 0x7B, 0x7F, 0x82, 0x83, 0x87] ++
  [0x8B, 0x8F, 0x93, 0x97, 0x9B, 0x9F, 0xA3, 0xA7, 0xAB, 0xAF, 0xB3, 0xB7, 0xBB, 0xBF] ++
  [0xC2, 0xC3, 0xC7, 0xCB, 0xCF, 0xD3, 0xD4, 0xD7, 0xDB, 0xDC, 0xDF, 0xE2, 0xE3, 0xE7] ++
  [0xEB, 0xEF, 0xF3, 0xF4, 0xF7, 0xFB, 0xFC, 0xFF]

/-- Whether `decode` gives the byte an instruction under `v` (R86). -/
def validCode (v : Variant) (b : Byte) : Bool :=
  match v with
  | .nmos => !(invalidCodes.contains b || cmosCodes.contains b)
  | .cmos => !invalidCodes.contains b

/-- The `(zp)` mode is decoded only under `CMOS` (R81, R120). -/
def AccMem.cmosOnly : AccMem → Bool
  | .izp _ => true
  | .zp _ | .zpx _ | .abs _ | .abx _ | .aby _ | .izx _ | .izy _ => false

/-- A source in the `(zp)` mode is decoded only under `CMOS` (R86). -/
def Src.accCmosOnly : Src AccMem → Bool
  | .imm _ => false
  | .mem m => m.cmosOnly

/-- The forms `CMOS` adds to `BIT`: immediate, `zp,X` and `abs,X` (R86, R193). -/
def Src.bitCmosOnly : Src XMem → Bool
  | .imm _ => true
  | .mem (.zpx _) | .mem (.abx _) => true
  | .mem (.zp _) | .mem (.abs _) => false

/-- The accumulator form of `INC` and `DEC` is decoded only under `CMOS` (R211, R212). -/
def Rmw.incCmosOnly : Rmw XMem → Bool
  | .acc => true
  | .mem _ => false

/-- `JMP ($nnnn,X)` is decoded only under `CMOS` (R127, R250). -/
def JmpMem.cmosOnly : JmpMem → Bool
  | .iax _ => true
  | .abs _ | .ind _ => false

/-- The instruction forms that are decoded only when `VARIANT = CMOS` (R85, R86). -/
def Instr.cmosOnly : Instr → Bool
  | .adc src | .and src | .cmp src | .eor src | .lda src | .ora src | .sbc src => src.accCmosOnly
  | .sta m => m.cmosOnly
  | .bit src => src.bitCmosOnly
  | .inc dst | .dec dst => dst.incCmosOnly
  | .jmp t => t.cmosOnly
  | .bra _ | .phx | .phy | .plx | .ply | .stz _ | .trb _ | .tsb _ => true
  | .asl _ | .lsr _ | .rol _ | .ror _ => false
  | .bcc _ | .bcs _ | .beq _ | .bmi _ | .bne _ | .bpl _ | .bvc _ | .bvs _ => false
  | .brk | .clc | .cld | .cli | .clv | .sec | .sed | .sei | .nop => false
  | .cpx _ | .cpy _ | .ldx _ | .ldy _ | .stx _ | .sty _ | .jsr _ => false
  | .dex | .dey | .inx | .iny | .tax | .tay | .tsx | .txa | .txs | .tya => false
  | .pha | .php | .pla | .plp | .rti | .rts => false
  | .invalid _ => false

/-- What `decode` can produce under `v`: the valid forms of the variant, and `INVALID` for exactly the bytes outside
the valid set (R86, R88). -/
def Instr.wellFormed (v : Variant) (i : Instr) : Bool :=
  match i with
  | .invalid b => !validCode v b
  | _ => v == .cmos || !i.cmosOnly

end Sys2Proof
end

