-- ==== Sys2Proof/Decode.lean ====
section
/-! DEFINITION. Decoding and encoding (30_encoding), and what the opcode table says of each instruction: its mode, its
length, its base cycle count and its page penalty (R84, R89). -/

namespace Sys2Proof

/-! ### Operands -/

def AccMem.addr : AccMem → AddrMode
  | .zp b => .zp b
  | .zpx b => .zpx b
  | .abs w => .abs w
  | .abx w => .abx w
  | .aby w => .aby w
  | .izx b => .izx b
  | .izy b => .izy b
  | .izp b => .izp b

def XMem.addr : XMem → AddrMode
  | .zp b => .zp b
  | .zpx b => .zpx b
  | .abs w => .abs w
  | .abx w => .abx w

def LdxMem.addr : LdxMem → AddrMode
  | .zp b => .zp b
  | .zpy b => .zpy b
  | .abs w => .abs w
  | .aby w => .aby w

def StxMem.addr : StxMem → AddrMode
  | .zp b => .zp b
  | .zpy b => .zpy b
  | .abs w => .abs w

def StyMem.addr : StyMem → AddrMode
  | .zp b => .zp b
  | .zpx b => .zpx b
  | .abs w => .abs w

def ZpAbs.addr : ZpAbs → AddrMode
  | .zp b => .zp b
  | .abs w => .abs w

def JmpMem.addr : JmpMem → AddrMode
  | .abs w => .abs w
  | .ind w => .ind w
  | .iax w => .iax w

/-- The operand kind of a source (R113). -/
def Src.operand {μ : Type} (f : μ → AddrMode) : Src μ → Operand
  | .imm b => .imm b
  | .mem m => .mem (f m)

/-- The operand kind of a read-modify-write destination (R113). -/
def Rmw.operand {μ : Type} (f : μ → AddrMode) : Rmw μ → Operand
  | .acc => .acc
  | .mem m => .mem (f m)

/-- The mode's name (R81). -/
def AddrMode.mode : AddrMode → Mode
  | .zp _ => .zp
  | .zpx _ => .zpx
  | .zpy _ => .zpy
  | .izx _ => .izx
  | .izy _ => .izy
  | .izp _ => .izp
  | .abs _ => .abs
  | .abx _ => .abx
  | .aby _ => .aby
  | .ind _ => .ind
  | .iax _ => .iax
  | .rel _ => .rel

/-- The operand bytes in ascending address order: the low byte of an address first (R57, R80, R82). -/
def AddrMode.bytes : AddrMode → List Byte
  | .zp b | .zpx b | .zpy b | .izx b | .izy b | .izp b | .rel b => [b]
  | .abs w | .abx w | .aby w | .ind w | .iax w => [lo w, hi w]

/-- The mode's name (R81). -/
def Operand.mode : Operand → Mode
  | .imm _ => .imm
  | .acc => .acc
  | .imp => .imp
  | .stk => .stk
  | .mem a => a.mode

/-- The operand bytes (R80). -/
def Operand.bytes : Operand → List Byte
  | .imm b => [b]
  | .acc | .imp | .stk => []
  | .mem a => a.bytes

/-- The operand of an instruction; `STK` and `IMP` as the opcode table assigns them (R81, decision D17). -/
def Instr.operand : Instr → Operand
  | .adc src => src.operand AccMem.addr
  | .and src => src.operand AccMem.addr
  | .asl dst => dst.operand XMem.addr
  | .bcc d => .mem (.rel d)
  | .bcs d => .mem (.rel d)
  | .beq d => .mem (.rel d)
  | .bit src => src.operand XMem.addr
  | .bmi d => .mem (.rel d)
  | .bne d => .mem (.rel d)
  | .bpl d => .mem (.rel d)
  | .bra d => .mem (.rel d)
  | .brk => .stk
  | .bvc d => .mem (.rel d)
  | .bvs d => .mem (.rel d)
  | .clc => .imp
  | .cld => .imp
  | .cli => .imp
  | .clv => .imp
  | .cmp src => src.operand AccMem.addr
  | .cpx src => src.operand ZpAbs.addr
  | .cpy src => src.operand ZpAbs.addr
  | .dec dst => dst.operand XMem.addr
  | .dex => .imp
  | .dey => .imp
  | .eor src => src.operand AccMem.addr
  | .inc dst => dst.operand XMem.addr
  | .inx => .imp
  | .iny => .imp
  | .jmp t => .mem t.addr
  | .jsr w => .mem (.abs w)
  | .lda src => src.operand AccMem.addr
  | .ldx src => src.operand LdxMem.addr
  | .ldy src => src.operand XMem.addr
  | .lsr dst => dst.operand XMem.addr
  | .nop => .imp
  | .ora src => src.operand AccMem.addr
  | .pha => .stk
  | .php => .stk
  | .phx => .stk
  | .phy => .stk
  | .pla => .stk
  | .plp => .stk
  | .plx => .stk
  | .ply => .stk
  | .rol dst => dst.operand XMem.addr
  | .ror dst => dst.operand XMem.addr
  | .rti => .stk
  | .rts => .stk
  | .sbc src => src.operand AccMem.addr
  | .sec => .imp
  | .sed => .imp
  | .sei => .imp
  | .sta m => .mem m.addr
  | .stx m => .mem m.addr
  | .sty m => .mem m.addr
  | .stz m => .mem m.addr
  | .tax => .imp
  | .tay => .imp
  | .trb m => .mem m.addr
  | .tsb m => .mem m.addr
  | .tsx => .imp
  | .txa => .imp
  | .txs => .imp
  | .tya => .imp
  | .invalid _ => .imp

/-- The `Opcode` of an instruction (R10, R85). -/
def Instr.opcode : Instr → Opcode
  | .adc _ => .adc
  | .and _ => .and
  | .asl _ => .asl
  | .bcc _ => .bcc
  | .bcs _ => .bcs
  | .beq _ => .beq
  | .bit _ => .bit
  | .bmi _ => .bmi
  | .bne _ => .bne
  | .bpl _ => .bpl
  | .bra _ => .bra
  | .brk => .brk
  | .bvc _ => .bvc
  | .bvs _ => .bvs
  | .clc => .clc
  | .cld => .cld
  | .cli => .cli
  | .clv => .clv
  | .cmp _ => .cmp
  | .cpx _ => .cpx
  | .cpy _ => .cpy
  | .dec _ => .dec
  | .dex => .dex
  | .dey => .dey
  | .eor _ => .eor
  | .inc _ => .inc
  | .inx => .inx
  | .iny => .iny
  | .jmp _ => .jmp
  | .jsr _ => .jsr
  | .lda _ => .lda
  | .ldx _ => .ldx
  | .ldy _ => .ldy
  | .lsr _ => .lsr
  | .nop => .nop
  | .ora _ => .ora
  | .pha => .pha
  | .php => .php
  | .phx => .phx
  | .phy => .phy
  | .pla => .pla
  | .plp => .plp
  | .plx => .plx
  | .ply => .ply
  | .rol _ => .rol
  | .ror _ => .ror
  | .rti => .rti
  | .rts => .rts
  | .sbc _ => .sbc
  | .sec => .sec
  | .sed => .sed
  | .sei => .sei
  | .sta _ => .sta
  | .stx _ => .stx
  | .sty _ => .sty
  | .stz _ => .stz
  | .tax => .tax
  | .tay => .tay
  | .trb _ => .trb
  | .tsb _ => .tsb
  | .tsx => .tsx
  | .txa => .txa
  | .txs => .txs
  | .tya => .tya
  | .invalid _ => .invalid

/-- The `AddressingMode` of an instruction (R10, R81). -/
def Instr.mode (i : Instr) : Mode := i.operand.mode

/-- Length in bytes: one opcode byte and the operand bytes of the mode (R80, R83). -/
def Instr.length (i : Instr) : Nat := 1 + i.operand.bytes.length

/-! ### Encoding, from the "Encodings" line of each instruction's rule in files 41 to 45 -/

/-- The opcode byte of a mode of `AccMem`, given the bytes of its modes in the order of the type. -/
def AccMem.pick (zp zpx abs abx aby izx izy izp : Byte) : AccMem → Byte
  | .zp _ => zp
  | .zpx _ => zpx
  | .abs _ => abs
  | .abx _ => abx
  | .aby _ => aby
  | .izx _ => izx
  | .izy _ => izy
  | .izp _ => izp

/-- The opcode byte of a mode of `XMem`, given the bytes of its modes in the order of the type. -/
def XMem.pick (zp zpx abs abx : Byte) : XMem → Byte
  | .zp _ => zp
  | .zpx _ => zpx
  | .abs _ => abs
  | .abx _ => abx

/-- The opcode byte of a mode of `LdxMem`, given the bytes of its modes in the order of the type. -/
def LdxMem.pick (zp zpy abs aby : Byte) : LdxMem → Byte
  | .zp _ => zp
  | .zpy _ => zpy
  | .abs _ => abs
  | .aby _ => aby

/-- The opcode byte of a mode of `StxMem`, given the bytes of its modes in the order of the type. -/
def StxMem.pick (zp zpy abs : Byte) : StxMem → Byte
  | .zp _ => zp
  | .zpy _ => zpy
  | .abs _ => abs

/-- The opcode byte of a mode of `StyMem`, given the bytes of its modes in the order of the type. -/
def StyMem.pick (zp zpx abs : Byte) : StyMem → Byte
  | .zp _ => zp
  | .zpx _ => zpx
  | .abs _ => abs

/-- The opcode byte of a mode of `ZpAbs`, given the bytes of its modes in the order of the type. -/
def ZpAbs.pick (zp abs : Byte) : ZpAbs → Byte
  | .zp _ => zp
  | .abs _ => abs

/-- The opcode byte of a mode of `JmpMem`, given the bytes of its modes in the order of the type. -/
def JmpMem.pick (abs ind iax : Byte) : JmpMem → Byte
  | .abs _ => abs
  | .ind _ => ind
  | .iax _ => iax

/-- The opcode byte of an instruction form. -/
def Instr.opcodeByte : Instr → Byte
  | .adc (.imm _) => 0x69
  | .adc (.mem m) => m.pick 0x65 0x75 0x6D 0x7D 0x79 0x61 0x71 0x72
  | .and (.imm _) => 0x29
  | .and (.mem m) => m.pick 0x25 0x35 0x2D 0x3D 0x39 0x21 0x31 0x32
  | .asl .acc => 0x0A
  | .asl (.mem m) => m.pick 0x06 0x16 0x0E 0x1E
  | .bcc _ => 0x90
  | .bcs _ => 0xB0
  | .beq _ => 0xF0
  | .bit (.imm _) => 0x89
  | .bit (.mem m) => m.pick 0x24 0x34 0x2C 0x3C
  | .bmi _ => 0x30
  | .bne _ => 0xD0
  | .bpl _ => 0x10
  | .bra _ => 0x80
  | .brk => 0x00
  | .bvc _ => 0x50
  | .bvs _ => 0x70
  | .clc => 0x18
  | .cld => 0xD8
  | .cli => 0x58
  | .clv => 0xB8
  | .cmp (.imm _) => 0xC9
  | .cmp (.mem m) => m.pick 0xC5 0xD5 0xCD 0xDD 0xD9 0xC1 0xD1 0xD2
  | .cpx (.imm _) => 0xE0
  | .cpx (.mem m) => m.pick 0xE4 0xEC
  | .cpy (.imm _) => 0xC0
  | .cpy (.mem m) => m.pick 0xC4 0xCC
  | .dec .acc => 0x3A
  | .dec (.mem m) => m.pick 0xC6 0xD6 0xCE 0xDE
  | .dex => 0xCA
  | .dey => 0x88
  | .eor (.imm _) => 0x49
  | .eor (.mem m) => m.pick 0x45 0x55 0x4D 0x5D 0x59 0x41 0x51 0x52
  | .inc .acc => 0x1A
  | .inc (.mem m) => m.pick 0xE6 0xF6 0xEE 0xFE
  | .inx => 0xE8
  | .iny => 0xC8
  | .jmp t => t.pick 0x4C 0x6C 0x7C
  | .jsr _ => 0x20
  | .lda (.imm _) => 0xA9
  | .lda (.mem m) => m.pick 0xA5 0xB5 0xAD 0xBD 0xB9 0xA1 0xB1 0xB2
  | .ldx (.imm _) => 0xA2
  | .ldx (.mem m) => m.pick 0xA6 0xB6 0xAE 0xBE
  | .ldy (.imm _) => 0xA0
  | .ldy (.mem m) => m.pick 0xA4 0xB4 0xAC 0xBC
  | .lsr .acc => 0x4A
  | .lsr (.mem m) => m.pick 0x46 0x56 0x4E 0x5E
  | .nop => 0xEA
  | .ora (.imm _) => 0x09
  | .ora (.mem m) => m.pick 0x05 0x15 0x0D 0x1D 0x19 0x01 0x11 0x12
  | .pha => 0x48
  | .php => 0x08
  | .phx => 0xDA
  | .phy => 0x5A
  | .pla => 0x68
  | .plp => 0x28
  | .plx => 0xFA
  | .ply => 0x7A
  | .rol .acc => 0x2A
  | .rol (.mem m) => m.pick 0x26 0x36 0x2E 0x3E
  | .ror .acc => 0x6A
  | .ror (.mem m) => m.pick 0x66 0x76 0x6E 0x7E
  | .rti => 0x40
  | .rts => 0x60
  | .sbc (.imm _) => 0xE9
  | .sbc (.mem m) => m.pick 0xE5 0xF5 0xED 0xFD 0xF9 0xE1 0xF1 0xF2
  | .sec => 0x38
  | .sed => 0xF8
  | .sei => 0x78
  | .sta m => m.pick 0x85 0x95 0x8D 0x9D 0x99 0x81 0x91 0x92
  | .stx m => m.pick 0x86 0x96 0x8E
  | .sty m => m.pick 0x84 0x94 0x8C
  | .stz m => m.pick 0x64 0x74 0x9C 0x9E
  | .tax => 0xAA
  | .tay => 0xA8
  | .trb m => m.pick 0x14 0x1C
  | .tsb m => m.pick 0x04 0x0C
  | .tsx => 0xBA
  | .txa => 0x8A
  | .txs => 0x9A
  | .tya => 0x98
  | .invalid b => b

/-- The bytes of an instruction at ascending addresses (R80). -/
def encode (i : Instr) : List Byte := i.opcodeByte :: i.operand.bytes

/-! ### Decoding, from the opcode map R89 -/

/-- A byte of the `CMOS` additions: its instruction under `CMOS`, `INVALID` under `NMOS` (R86, R88). -/
def onlyCmos (v : Variant) (op : Byte) (i : Instr) : Instr :=
  match v with
  | .cmos => i
  | .nmos => .invalid op

/-- The instruction whose opcode byte is `op` and whose following bytes are `b1` and `b2` (R82, R84, R89): a table on the
whole byte (R90), total, `INVALID` outside the valid set (R88). A row with fewer operand bytes does not use the others. -/
def decodeInstr (v : Variant) (op b1 b2 : Byte) : Instr :=
  match op with
  | 0x00#8 => .brk
  | 0x01#8 => .ora (.mem (.izx b1))
  | 0x04#8 => onlyCmos v op (.tsb (.zp b1))
  | 0x05#8 => .ora (.mem (.zp b1))
  | 0x06#8 => .asl (.mem (.zp b1))
  | 0x08#8 => .php
  | 0x09#8 => .ora (.imm b1)
  | 0x0A#8 => .asl .acc
  | 0x0C#8 => onlyCmos v op (.tsb (.abs (cat b2 b1)))
  | 0x0D#8 => .ora (.mem (.abs (cat b2 b1)))
  | 0x0E#8 => .asl (.mem (.abs (cat b2 b1)))
  | 0x10#8 => .bpl b1
  | 0x11#8 => .ora (.mem (.izy b1))
  | 0x12#8 => onlyCmos v op (.ora (.mem (.izp b1)))
  | 0x14#8 => onlyCmos v op (.trb (.zp b1))
  | 0x15#8 => .ora (.mem (.zpx b1))
  | 0x16#8 => .asl (.mem (.zpx b1))
  | 0x18#8 => .clc
  | 0x19#8 => .ora (.mem (.aby (cat b2 b1)))
  | 0x1A#8 => onlyCmos v op (.inc .acc)
  | 0x1C#8 => onlyCmos v op (.trb (.abs (cat b2 b1)))
  | 0x1D#8 => .ora (.mem (.abx (cat b2 b1)))
  | 0x1E#8 => .asl (.mem (.abx (cat b2 b1)))
  | 0x20#8 => .jsr (cat b2 b1)
  | 0x21#8 => .and (.mem (.izx b1))
  | 0x24#8 => .bit (.mem (.zp b1))
  | 0x25#8 => .and (.mem (.zp b1))
  | 0x26#8 => .rol (.mem (.zp b1))
  | 0x28#8 => .plp
  | 0x29#8 => .and (.imm b1)
  | 0x2A#8 => .rol .acc
  | 0x2C#8 => .bit (.mem (.abs (cat b2 b1)))
  | 0x2D#8 => .and (.mem (.abs (cat b2 b1)))
  | 0x2E#8 => .rol (.mem (.abs (cat b2 b1)))
  | 0x30#8 => .bmi b1
  | 0x31#8 => .and (.mem (.izy b1))
  | 0x32#8 => onlyCmos v op (.and (.mem (.izp b1)))
  | 0x34#8 => onlyCmos v op (.bit (.mem (.zpx b1)))
  | 0x35#8 => .and (.mem (.zpx b1))
  | 0x36#8 => .rol (.mem (.zpx b1))
  | 0x38#8 => .sec
  | 0x39#8 => .and (.mem (.aby (cat b2 b1)))
  | 0x3A#8 => onlyCmos v op (.dec .acc)
  | 0x3C#8 => onlyCmos v op (.bit (.mem (.abx (cat b2 b1))))
  | 0x3D#8 => .and (.mem (.abx (cat b2 b1)))
  | 0x3E#8 => .rol (.mem (.abx (cat b2 b1)))
  | 0x40#8 => .rti
  | 0x41#8 => .eor (.mem (.izx b1))
  | 0x45#8 => .eor (.mem (.zp b1))
  | 0x46#8 => .lsr (.mem (.zp b1))
  | 0x48#8 => .pha
  | 0x49#8 => .eor (.imm b1)
  | 0x4A#8 => .lsr .acc
  | 0x4C#8 => .jmp (.abs (cat b2 b1))
  | 0x4D#8 => .eor (.mem (.abs (cat b2 b1)))
  | 0x4E#8 => .lsr (.mem (.abs (cat b2 b1)))
  | 0x50#8 => .bvc b1
  | 0x51#8 => .eor (.mem (.izy b1))
  | 0x52#8 => onlyCmos v op (.eor (.mem (.izp b1)))
  | 0x55#8 => .eor (.mem (.zpx b1))
  | 0x56#8 => .lsr (.mem (.zpx b1))
  | 0x58#8 => .cli
  | 0x59#8 => .eor (.mem (.aby (cat b2 b1)))
  | 0x5A#8 => onlyCmos v op (.phy)
  | 0x5D#8 => .eor (.mem (.abx (cat b2 b1)))
  | 0x5E#8 => .lsr (.mem (.abx (cat b2 b1)))
  | 0x60#8 => .rts
  | 0x61#8 => .adc (.mem (.izx b1))
  | 0x64#8 => onlyCmos v op (.stz (.zp b1))
  | 0x65#8 => .adc (.mem (.zp b1))
  | 0x66#8 => .ror (.mem (.zp b1))
  | 0x68#8 => .pla
  | 0x69#8 => .adc (.imm b1)
  | 0x6A#8 => .ror .acc
  | 0x6C#8 => .jmp (.ind (cat b2 b1))
  | 0x6D#8 => .adc (.mem (.abs (cat b2 b1)))
  | 0x6E#8 => .ror (.mem (.abs (cat b2 b1)))
  | 0x70#8 => .bvs b1
  | 0x71#8 => .adc (.mem (.izy b1))
  | 0x72#8 => onlyCmos v op (.adc (.mem (.izp b1)))
  | 0x74#8 => onlyCmos v op (.stz (.zpx b1))
  | 0x75#8 => .adc (.mem (.zpx b1))
  | 0x76#8 => .ror (.mem (.zpx b1))
  | 0x78#8 => .sei
  | 0x79#8 => .adc (.mem (.aby (cat b2 b1)))
  | 0x7A#8 => onlyCmos v op (.ply)
  | 0x7C#8 => onlyCmos v op (.jmp (.iax (cat b2 b1)))
  | 0x7D#8 => .adc (.mem (.abx (cat b2 b1)))
  | 0x7E#8 => .ror (.mem (.abx (cat b2 b1)))
  | 0x80#8 => onlyCmos v op (.bra b1)
  | 0x81#8 => .sta (.izx b1)
  | 0x84#8 => .sty (.zp b1)
  | 0x85#8 => .sta (.zp b1)
  | 0x86#8 => .stx (.zp b1)
  | 0x88#8 => .dey
  | 0x89#8 => onlyCmos v op (.bit (.imm b1))
  | 0x8A#8 => .txa
  | 0x8C#8 => .sty (.abs (cat b2 b1))
  | 0x8D#8 => .sta (.abs (cat b2 b1))
  | 0x8E#8 => .stx (.abs (cat b2 b1))
  | 0x90#8 => .bcc b1
  | 0x91#8 => .sta (.izy b1)
  | 0x92#8 => onlyCmos v op (.sta (.izp b1))
  | 0x94#8 => .sty (.zpx b1)
  | 0x95#8 => .sta (.zpx b1)
  | 0x96#8 => .stx (.zpy b1)
  | 0x98#8 => .tya
  | 0x99#8 => .sta (.aby (cat b2 b1))
  | 0x9A#8 => .txs
  | 0x9C#8 => onlyCmos v op (.stz (.abs (cat b2 b1)))
  | 0x9D#8 => .sta (.abx (cat b2 b1))
  | 0x9E#8 => onlyCmos v op (.stz (.abx (cat b2 b1)))
  | 0xA0#8 => .ldy (.imm b1)
  | 0xA1#8 => .lda (.mem (.izx b1))
  | 0xA2#8 => .ldx (.imm b1)
  | 0xA4#8 => .ldy (.mem (.zp b1))
  | 0xA5#8 => .lda (.mem (.zp b1))
  | 0xA6#8 => .ldx (.mem (.zp b1))
  | 0xA8#8 => .tay
  | 0xA9#8 => .lda (.imm b1)
  | 0xAA#8 => .tax
  | 0xAC#8 => .ldy (.mem (.abs (cat b2 b1)))
  | 0xAD#8 => .lda (.mem (.abs (cat b2 b1)))
  | 0xAE#8 => .ldx (.mem (.abs (cat b2 b1)))
  | 0xB0#8 => .bcs b1
  | 0xB1#8 => .lda (.mem (.izy b1))
  | 0xB2#8 => onlyCmos v op (.lda (.mem (.izp b1)))
  | 0xB4#8 => .ldy (.mem (.zpx b1))
  | 0xB5#8 => .lda (.mem (.zpx b1))
  | 0xB6#8 => .ldx (.mem (.zpy b1))
  | 0xB8#8 => .clv
  | 0xB9#8 => .lda (.mem (.aby (cat b2 b1)))
  | 0xBA#8 => .tsx
  | 0xBC#8 => .ldy (.mem (.abx (cat b2 b1)))
  | 0xBD#8 => .lda (.mem (.abx (cat b2 b1)))
  | 0xBE#8 => .ldx (.mem (.aby (cat b2 b1)))
  | 0xC0#8 => .cpy (.imm b1)
  | 0xC1#8 => .cmp (.mem (.izx b1))
  | 0xC4#8 => .cpy (.mem (.zp b1))
  | 0xC5#8 => .cmp (.mem (.zp b1))
  | 0xC6#8 => .dec (.mem (.zp b1))
  | 0xC8#8 => .iny
  | 0xC9#8 => .cmp (.imm b1)
  | 0xCA#8 => .dex
  | 0xCC#8 => .cpy (.mem (.abs (cat b2 b1)))
  | 0xCD#8 => .cmp (.mem (.abs (cat b2 b1)))
  | 0xCE#8 => .dec (.mem (.abs (cat b2 b1)))
  | 0xD0#8 => .bne b1
  | 0xD1#8 => .cmp (.mem (.izy b1))
  | 0xD2#8 => onlyCmos v op (.cmp (.mem (.izp b1)))
  | 0xD5#8 => .cmp (.mem (.zpx b1))
  | 0xD6#8 => .dec (.mem (.zpx b1))
  | 0xD8#8 => .cld
  | 0xD9#8 => .cmp (.mem (.aby (cat b2 b1)))
  | 0xDA#8 => onlyCmos v op (.phx)
  | 0xDD#8 => .cmp (.mem (.abx (cat b2 b1)))
  | 0xDE#8 => .dec (.mem (.abx (cat b2 b1)))
  | 0xE0#8 => .cpx (.imm b1)
  | 0xE1#8 => .sbc (.mem (.izx b1))
  | 0xE4#8 => .cpx (.mem (.zp b1))
  | 0xE5#8 => .sbc (.mem (.zp b1))
  | 0xE6#8 => .inc (.mem (.zp b1))
  | 0xE8#8 => .inx
  | 0xE9#8 => .sbc (.imm b1)
  | 0xEA#8 => .nop
  | 0xEC#8 => .cpx (.mem (.abs (cat b2 b1)))
  | 0xED#8 => .sbc (.mem (.abs (cat b2 b1)))
  | 0xEE#8 => .inc (.mem (.abs (cat b2 b1)))
  | 0xF0#8 => .beq b1
  | 0xF1#8 => .sbc (.mem (.izy b1))
  | 0xF2#8 => onlyCmos v op (.sbc (.mem (.izp b1)))
  | 0xF5#8 => .sbc (.mem (.zpx b1))
  | 0xF6#8 => .inc (.mem (.zpx b1))
  | 0xF8#8 => .sed
  | 0xF9#8 => .sbc (.mem (.aby (cat b2 b1)))
  | 0xFA#8 => onlyCmos v op (.plx)
  | 0xFD#8 => .sbc (.mem (.abx (cat b2 b1)))
  | 0xFE#8 => .inc (.mem (.abx (cat b2 b1)))
  | _ => .invalid op

/-- Why a list of bytes is no instruction. Decoding a byte the table leaves out is not among the reasons: that is `INVALID`. -/
inductive DecodeReject where
  /-- There is no opcode byte. -/
  | noOpcode
  /-- An operand byte is missing. -/
  | missingOperand
deriving DecidableEq, Repr

/-- Decoding a list of bytes: the instruction and the bytes after it. -/
def decode (v : Variant) : List Byte → Except DecodeReject (Instr × List Byte)
  | [] => .error .noOpcode
  | op :: rest =>
    let i := decodeInstr v op (rest.getD 0 0) (rest.getD 1 0)
    let n := i.operand.bytes.length
    if rest.length < n then .error .missingOperand else .ok (i, rest.drop n)

/-! ### The cycle columns of the opcode table -/

/-- `base_cycles` of every opcode byte under `CMOS`, sixteen bytes a row (opcode_table.json `cycles_cmos`; R89, R351). -/
def cyclesTable : List Nat :=
  [7, 6, 1, 1, 5, 3, 5, 1, 3, 2, 2, 1, 6, 4, 6, 1] ++
  [2, 5, 5, 1, 5, 4, 6, 1, 2, 4, 2, 1, 6, 4, 6, 1] ++
  [6, 6, 1, 1, 3, 3, 5, 1, 4, 2, 2, 1, 4, 4, 6, 1] ++
  [2, 5, 5, 1, 4, 4, 6, 1, 2, 4, 2, 1, 4, 4, 6, 1] ++
  [6, 6, 1, 1, 1, 3, 5, 1, 3, 2, 2, 1, 3, 4, 6, 1] ++
  [2, 5, 5, 1, 1, 4, 6, 1, 2, 4, 3, 1, 1, 4, 6, 1] ++
  [6, 6, 1, 1, 3, 3, 5, 1, 4, 2, 2, 1, 6, 4, 6, 1] ++
  [2, 5, 5, 1, 4, 4, 6, 1, 2, 4, 4, 1, 6, 4, 6, 1] ++
  [2, 6, 1, 1, 3, 3, 3, 1, 2, 2, 2, 1, 4, 4, 4, 1] ++
  [2, 6, 5, 1, 4, 4, 4, 1, 2, 5, 2, 1, 4, 5, 5, 1] ++
  [2, 6, 2, 1, 3, 3, 3, 1, 2, 2, 2, 1, 4, 4, 4, 1] ++
  [2, 5, 5, 1, 4, 4, 4, 1, 2, 4, 2, 1, 4, 4, 4, 1] ++
  [2, 6, 1, 1, 3, 3, 5, 1, 2, 2, 2, 1, 4, 4, 6, 1] ++
  [2, 5, 5, 1, 1, 4, 6, 1, 2, 4, 3, 1, 1, 4, 7, 1] ++
  [2, 6, 1, 1, 3, 3, 5, 1, 2, 2, 2, 1, 4, 4, 6, 1] ++
  [2, 5, 5, 1, 1, 4, 6, 1, 2, 4, 4, 1, 1, 4, 7, 1]

/-- The rows whose `base_cycles` differ under `NMOS` (R353): `JMP ($nnnn)` 5, and the shifts and rotates `abs,X` 7. -/
def nmosCycles (op : Byte) : Option Nat :=
  if op == 0x6C then some 5
  else if [0x1E, 0x3E, 0x5E, 0x7E].contains op then some 7
  else none

/-- The rows with `page_penalty = 1` under both variants, and `BIT abs,X` of `CMOS` (R89, R352). -/
def penaltyCodes : List Byte :=
  [0x11, 0x19, 0x1D, 0x31, 0x39, 0x3C, 0x3D, 0x51, 0x59, 0x5D, 0x71, 0x79, 0x7D, 0xB1] ++
  [0xB9, 0xBC, 0xBD, 0xBE, 0xD1, 0xD9, 0xDD, 0xF1, 0xF9, 0xFD]

/-- The rows with `page_penalty = 1` under `CMOS` only: the shifts and rotates `abs,X` (R352, R353). -/
def cmosPenaltyCodes : List Byte := [0x1E, 0x3E, 0x5E, 0x7E]

/-- `base_cycles` of R84: 1 for `INVALID` (R88), the row's count otherwise. -/
def Instr.baseCycles (v : Variant) (i : Instr) : Nat :=
  if i.opcode == .invalid then 1
  else
    let row := cyclesTable.getD i.opcodeByte.toNat 1
    match v with
    | .cmos => row
    | .nmos => (nmosCycles i.opcodeByte).getD row

/-- `page_penalty` of R84: 0 for `INVALID` (R88), the row's flag otherwise. -/
def Instr.pagePenalty (v : Variant) (i : Instr) : Bool :=
  if i.opcode == .invalid then false
  else
    penaltyCodes.contains i.opcodeByte || (v == .cmos && cmosPenaltyCodes.contains i.opcodeByte)

/-! ### The host's view of the table -/

/-- The instruction the decoder reads from an instruction of `nbits` bits whose value is `w`, the first byte in bits 7 to 0,
every bit above `nbits` zero. The decoder is the one of `Machine.resetVariant` (log entry 1). -/
def decodeTableWord (nbits w : Nat) : Option Instr :=
  let u := w % 2 ^ nbits
  match decode Machine.resetVariant [byteAt u 0, byteAt u 1, byteAt u 2] with
  | .ok (i, _) => some i
  | .error _ => none

end Sys2Proof
end

