-- ==== Sys2Proof/Machine/Ops.lean ====
section
/-! DEFINITION. The named operations over memory and registers: byte and word access (20_memory), register writes, the stack
(10_state R40, R41), the software interrupt and its return (60 R316, R317), the host's operations `reset` and `load_program`. -/

namespace Sys2Proof.Machine

/-! ### Memory -/

/-- The byte at an address; an unlisted address holds 0 (R68). -/
def Memory.read : Memory → Nat → Byte
  | [], _ => 0
  | (k, v) :: rest, a => if k = a then v else Memory.read rest a

/-- The memory without any entry for the address. -/
def Memory.erase (m : Memory) (a : Nat) : Memory := m.filter fun cell => cell.1 != a

/-- An entry put in its place among entries at other addresses. -/
def Memory.insert : Memory → Nat → Byte → Memory
  | [], a, v => [(a, v)]
  | (k, w) :: rest, a, v => if a < k then (a, v) :: (k, w) :: rest else (k, w) :: Memory.insert rest a v

/-- One byte stored (R52); storing 0 removes the entry, so that equal memories are equal lists. -/
def Memory.write (m : Memory) (a : Nat) (v : Byte) : Memory :=
  if v = 0 then Memory.erase m a else Memory.insert (Memory.erase m a) a v

/-- Every address of the list is above `a`. -/
def Memory.above (a : Nat) (m : Memory) : Bool := m.all fun cell => decide (a < cell.1)

/-- The canonical form: addresses strictly rising and below 65536, no byte 0. -/
def Memory.wf : Memory → Bool
  | [] => true
  | (k, v) :: rest => decide (k < 65536) && v != 0 && Memory.above k rest && Memory.wf rest

/-! ### Register and field writes -/

/-- `PC <- v`. -/
def State.setPc (s : State) (v : Addr) : State := { s with pc := v }

/-- `AC <- v`. -/
def State.setAc (s : State) (v : Byte) : State := { s with ac := v }

/-- `X <- v`. -/
def State.setX (s : State) (v : Byte) : State := { s with x := v }

/-- `Y <- v`. -/
def State.setY (s : State) (v : Byte) : State := { s with y := v }

/-- `SP <- v`. -/
def State.setSp (s : State) (v : Byte) : State := { s with sp := v }

/-- All of `SR`. -/
def State.setSr (s : State) (f : Flags) : State := { s with sr := f }

/-- `CYC`. -/
def State.setCyc (s : State) (n : Nat) : State := { s with cyc := n }

/-- The memory. -/
def State.setMem (s : State) (m : Memory) : State := { s with mem := m }

/-- The result record. -/
def State.setOut (s : State) (r : Option StepResult) : State := { s with out := r }

/-- The three data registers (R21, R22). -/
inductive DataReg where
  | ac | x | y
deriving DecidableEq, Repr

/-- A data register read. -/
def State.getReg (s : State) : DataReg → Byte
  | .ac => s.ac
  | .x => s.x
  | .y => s.y

/-- A data register written. -/
def State.setReg (s : State) (r : DataReg) (v : Byte) : State :=
  match r with
  | .ac => s.setAc v
  | .x => s.setX v
  | .y => s.setY v

/-- `update_zero_negative` on the machine (R32). -/
def State.updateZeroNegative (s : State) (v : Byte) : State := s.setSr (s.sr.updateZeroNegative v)

/-- A result put in a data register, with `Z` and `N` from it. -/
def State.putReg (s : State) (r : DataReg) (v : Byte) : State := (s.setReg r v).updateZeroNegative v

/-! ### Memory access -/

/-- `MemRead(addr, 1)` (R51). -/
def State.read (s : State) (a : Addr) : Byte := Memory.read s.mem a.toNat

/-- `MemWrite(addr, 1, v)` (R52); also the host's memory write between steps (R349). -/
def State.write (s : State) (a : Addr) (v : Byte) : State := s.setMem (Memory.write s.mem a.toNat v)

/-- `MemRead16(addr)`: low byte first, the next address modulo 65536 (R55). -/
def State.read16 (s : State) (a : Addr) : Addr := cat (s.read (a + 1)) (s.read a)

/-- `MemRead16zp(p)`: both bytes in page zero (R56). -/
def State.read16zp (s : State) (p : Byte) : Addr := cat (s.read (zext16 (p + 1))) (s.read (zext16 p))

/-! ### Stack -/

/-- The address `0x0100 + p` of the stack page (R23). -/
def stackAddr (p : Byte) : Addr := cat 0x01 p

/-- `push(v)`: write at `0x0100 + SP`, then decrement `SP` modulo 256 (R40). -/
def State.push (s : State) (v : Byte) : State := (s.write (stackAddr s.sp) v).setSp (s.sp - 1)

/-- The state after `pull()`: `SP` incremented modulo 256 (R41). -/
def State.pulled (s : State) : State := s.setSp (s.sp + 1)

/-- The byte `pull()` returns: the one at the incremented `SP` (R41). -/
def State.pullByte (s : State) : Byte := s.read (stackAddr (s.sp + 1))

/-- A 16-bit value pushed high byte first, then low byte (R57, R251, R290). -/
def State.pushAddr (s : State) (w : Addr) : State := (s.push (hi w)).push (lo w)

/-- The 16-bit value that two pulls return, low byte first (R252, R253). -/
def State.pullAddr (s : State) : Addr := cat s.pulled.pullByte s.pullByte

/-- The state after the two pulls of a 16-bit value. -/
def State.pulledAddr (s : State) : State := s.pulled.pulled

/-! ### The software interrupt: entry and return -/

/-- The vector `BRK` reads (R6, R60, C1). -/
def brkVector : Addr := 0xFFFE

/-- The vector `reset` reads (R6, R340). -/
def resetVector : Addr := 0xFFFC

/-- The flags after entering the handler (R316 step 2, R290): `I` set, `D` cleared under `CMOS`, the live `B` and `U` untouched
(R35, decision D12). -/
def handlerFlags (v : Variant) (f : Flags) : Flags :=
  match v with
  | .nmos => f.set .i true
  | .cmos => (f.set .i true).set .d false

/-- Entering the handler (R316, R290): push the return address, push the status with bits 5 and 4 set, change the flags, load
`PC` from the vector. -/
def State.enterHandler (s : State) (ret : Addr) : State :=
  let t := (s.pushAddr ret).push s.sr.pushed
  (t.setSr (handlerFlags s.variant s.sr)).setPc (t.read16 brkVector)

/-- Returning from a handler (R317, R253): pull the status literally, pull the return address, no increment. -/
def State.returnFromHandler (s : State) : State :=
  let t := s.pulled.setSr (Flags.unpack s.pullByte)
  t.pulledAddr.setPc t.pullAddr

/-! ### The host's operations -/

/-- The operation `reset` (R340 to R342): every piece of the block's state is written, the memory is not. -/
def State.applyReset (s : State) : State :=
  { variant := s.variant, pc := s.read16 resetVector, ac := 0x00, x := 0x00, y := 0x00, sp := 0xFF
    sr := Flags.reset, cyc := 0, mem := s.mem, out := none }

/-- `load_program(base, bytes)`: the bytes at `base`, `base + 1`, ... modulo 65536, in order (R53, decision D14). -/
def State.loadProgram (s : State) (base : Addr) : List Byte → State
  | [] => s
  | b :: rest => State.loadProgram (s.write base b) (base + 1) rest

end Sys2Proof.Machine
end

