-- ==== Sys2Proof/Machine/Operands.lean ====
section
/-! DEFINITION. The addressing-mode resolver (40 R113 to R132). Every function here is applied to the state whose `PC` is already
past the instruction's operand bytes (R25). -/

namespace Sys2Proof

/-- The same source with its memory mode made a general one. -/
def Src.resolve {μ : Type} (f : μ → AddrMode) : Src μ → Src AddrMode
  | .imm b => .imm b
  | .mem m => .mem (f m)

/-- The same destination with its memory mode made a general one. -/
def Rmw.resolve {μ : Type} (f : μ → AddrMode) : Rmw μ → Rmw AddrMode
  | .acc => .acc
  | .mem m => .mem (f m)

namespace Machine

/-- The state after the opcode and the operand bytes of `i` have been fetched (R25, R111): `PC` is the address of the next
instruction, modulo 65536 (R26). -/
def State.pastOperands (s : State) (i : Instr) : State := s.setPc (s.pc + BitVec.ofNat 16 i.length)

/-- The word at a `JMP` pointer: under `NMOS` the high byte comes from the pointer's own page, under `CMOS` from the next
address (R126). -/
def State.readPointer (s : State) (w : Addr) : Addr :=
  match s.variant with
  | .nmos => cat (s.read (cat (hi w) (lo w + 1))) (s.read w)
  | .cmos => s.read16 w

/-- `EA` of each mode (R115 to R123, R126, R127, R130). -/
def State.effectiveAddress (s : State) : AddrMode → Addr
  | .zp b => zext16 b
  | .zpx b => zext16 (b + s.x)
  | .zpy b => zext16 (b + s.y)
  | .izx b => s.read16zp (b + s.x)
  | .izy b => s.read16zp b + zext16 s.y
  | .izp b => s.read16zp b
  | .abs w => w
  | .abx w => w + zext16 s.x
  | .aby w => w + zext16 s.y
  | .ind w => s.readPointer w
  | .iax w => s.read16 (w + zext16 s.x)
  | .rel d => s.pc + sext16 d

/-- `page_crossed` of a mode that gives an address (R125): the high byte of the base differs from that of `EA`; for `REL` the base
is `PC` after the operand (R130); 0 for every mode but these four. -/
def State.modeCrossed (s : State) : AddrMode → Bool
  | .izy b => hi (s.read16zp b) != hi (s.effectiveAddress (.izy b))
  | .abx w => hi w != hi (s.effectiveAddress (.abx w))
  | .aby w => hi w != hi (s.effectiveAddress (.aby w))
  | .rel d => hi s.pc != hi (s.effectiveAddress (.rel d))
  | .zp _ | .zpx _ | .zpy _ | .izx _ | .izp _ | .abs _ | .ind _ | .iax _ => false

/-- `page_crossed` of an operand: 0 for one without `EA` (R113, R114, R128, R129). -/
def State.pageCrossed (s : State) : Operand → Bool
  | .imm _ | .acc | .imp | .stk => false
  | .mem a => s.modeCrossed a

/-- `operand()` of a source (R131). -/
def State.sourceByte (s : State) : Src AddrMode → Byte
  | .imm b => b
  | .mem a => s.read (s.effectiveAddress a)

/-- `operand()` of a read-modify-write destination (R131, R221). -/
def State.targetByte (s : State) : Rmw AddrMode → Byte
  | .acc => s.ac
  | .mem a => s.read (s.effectiveAddress a)

/-- `write_result(v)` (R132). -/
def State.writeTarget (s : State) (dst : Rmw AddrMode) (v : Byte) : State :=
  match dst with
  | .acc => s.setAc v
  | .mem a => s.write (s.effectiveAddress a) v

end Machine
end Sys2Proof
end

