-- ==== Sys2Proof/Machine/Timing.lean ====
section
/-! DEFINITION. The cycle cost of a step (70 R350 to R353) and the end of every instruction: `CYC` and the result record
(40 R110, R112). -/

namespace Sys2Proof.Machine

/-- What a step answers. -/
abbrev Result := Host.Outcome State Fault Refusal

/-- `cycles(...)` (R350). -/
def cycleCost (v : Variant) (i : Instr) (crossed taken decimal : Bool) : Nat :=
  i.baseCycles v +
    bitNat (i.pagePenalty v && crossed) +
    bitNat (i.mode == .rel && taken) +
    bitNat (i.mode == .rel && taken && crossed) +
    bitNat (v == .cmos && (i.opcode == .adc || i.opcode == .sbc) && decimal)

/-- The cycle cost of `i` executed from `s`, whose `PC` is the address of the opcode byte. -/
def State.cost (s : State) (i : Instr) (taken : Bool) : Nat :=
  cycleCost s.variant i ((s.pastOperands i).pageCrossed i.operand) taken s.sr.d

/-- The state at the end of the step (R110, R112): `t`, the state after the instruction's own effect on `s`, with the cost added to
`CYC` and the result record put out. -/
def completed (i : Instr) (s : State) (taken : Bool) (t : State) : State :=
  (t.setCyc (t.cyc + s.cost i taken)).setOut
    (some { cycles := s.cost i taken, invalid := i.opcode == .invalid, opcode := i.opcode, mode := i.mode })

/-- The end of every instruction: a next state (R310). -/
def complete (i : Instr) (s : State) (taken : Bool) (t : State) : Result := .next (completed i s taken t)

end Sys2Proof.Machine
end

