-- ==== Sys2Proof/Machine/Arith.lean ====
section
/-! DEFINITION. Arithmetic, logic, compare and bit-test instructions (42 R185 to R195). -/

namespace Sys2Proof.Machine

/-- An addition or subtraction `f a m c` into `AC` with its four flags (R185, R186). -/
def addInto (i : Instr) (f : Byte → Byte → Bool → AluResult) (src : Src AddrMode) (s : State) : Result :=
  let t := s.pastOperands i
  let q := f t.ac (t.sourceByte src) t.sr.c
  complete i s false ((t.setAc q.r).setSr (t.sr.withAlu q))

/-- A bitwise operation into `AC`, `Z` and `N` from the result (R187 to R189). -/
def logicInto (i : Instr) (f : Byte → Byte → Byte) (src : Src AddrMode) (s : State) : Result :=
  let t := s.pastOperands i
  complete i s false (t.putReg .ac (f t.ac (t.sourceByte src)))

/-- A comparison: `C`, `Z`, `N` and nothing else (R184, R190 to R192). -/
def compareReg (i : Instr) (r : DataReg) (src : Src AddrMode) (s : State) : Result :=
  let t := s.pastOperands i
  complete i s false (t.setSr (t.sr.withCompare (t.getReg r) (t.sourceByte src)))

/-- A test that changes memory: `Z` from `AC & m` with the old byte `m`, then `f m AC` written back (R194, R195). -/
def testAndWrite (i : Instr) (f : Byte → Byte → Byte) (a : AddrMode) (s : State) : Result :=
  let t := s.pastOperands i
  let ea := t.effectiveAddress a
  let m := t.read ea
  complete i s false ((t.setSr (t.sr.set .z (t.ac &&& m == 0))).write ea (f m t.ac))

/-- `ADC` (R185). -/
def execAdc (src : Src AccMem) (s : State) : Result :=
  addInto (.adc src) (adcResult s.variant s.sr.d) (src.resolve AccMem.addr) s

/-- `SBC` (R186). -/
def execSbc (src : Src AccMem) (s : State) : Result :=
  addInto (.sbc src) (sbcResult s.variant s.sr.d) (src.resolve AccMem.addr) s

/-- `AND` (R187). -/
def execAnd (src : Src AccMem) (s : State) : Result :=
  logicInto (.and src) (fun a m => a &&& m) (src.resolve AccMem.addr) s

/-- `ORA` (R188). -/
def execOra (src : Src AccMem) (s : State) : Result :=
  logicInto (.ora src) (fun a m => a ||| m) (src.resolve AccMem.addr) s

/-- `EOR` (R189). -/
def execEor (src : Src AccMem) (s : State) : Result :=
  logicInto (.eor src) (fun a m => a ^^^ m) (src.resolve AccMem.addr) s

/-- `CMP` (R190). -/
def execCmp (src : Src AccMem) (s : State) : Result := compareReg (.cmp src) .ac (src.resolve AccMem.addr) s

/-- `CPX` (R191). -/
def execCpx (src : Src ZpAbs) (s : State) : Result := compareReg (.cpx src) .x (src.resolve ZpAbs.addr) s

/-- `CPY` (R192). -/
def execCpy (src : Src ZpAbs) (s : State) : Result := compareReg (.cpy src) .y (src.resolve ZpAbs.addr) s

/-- The flags of `BIT` (R193): `Z` from `AC & m`; `N` and `V` from bits 7 and 6 of the operand, but not in the immediate mode. -/
def Flags.withBit (f : Flags) (immediate : Bool) (ac m : Byte) : Flags :=
  let g := f.set .z (ac &&& m == 0)
  if immediate then g else (g.set .n (bit7 m)).set .v (bit6 m)

/-- Whether a source is immediate (R113). -/
def isImmediate : Src AddrMode → Bool
  | .imm _ => true
  | .mem _ => false

/-- `BIT` (R193). -/
def execBit (src : Src XMem) (s : State) : Result :=
  let t := s.pastOperands (.bit src)
  let o := src.resolve XMem.addr
  complete (.bit src) s false (t.setSr (t.sr.withBit (isImmediate o) t.ac (t.sourceByte o)))

/-- `TRB` (R194). -/
def execTrb (m : ZpAbs) (s : State) : Result := testAndWrite (.trb m) (fun b a => b &&& (a ^^^ 0xFF)) m.addr s

/-- `TSB` (R195). -/
def execTsb (m : ZpAbs) (s : State) : Result := testAndWrite (.tsb m) (fun b a => b ||| a) m.addr s

end Sys2Proof.Machine
end

