-- ==== Sys2Proof/Machine/IncShift.lean ====
section
/-! DEFINITION. Increment, decrement, shift and rotate instructions (43 R211 to R221). -/

namespace Sys2Proof.Machine

/-- An increment or decrement of `AC` or memory by `delta`: read, write back, `Z` and `N` from the result (R211, R212, R221). -/
def addToTarget (i : Instr) (delta : Byte) (dst : Rmw AddrMode) (s : State) : Result :=
  let t := s.pastOperands i
  let r := t.targetByte dst + delta
  complete i s false ((t.writeTarget dst r).updateZeroNegative r)

/-- An increment or decrement of an index register (R213 to R216). -/
def addToReg (i : Instr) (delta : Byte) (r : DataReg) (s : State) : Result :=
  let t := s.pastOperands i
  complete i s false (t.putReg r (t.getReg r + delta))

/-- A shift or rotate `f v cin` of `AC` or memory: read, write back, `C`, `Z` and `N` (R217 to R221). -/
def shiftTarget (i : Instr) (f : Byte → Bool → ShiftResult) (dst : Rmw AddrMode) (s : State) : Result :=
  let t := s.pastOperands i
  let q := f (t.targetByte dst) t.sr.c
  complete i s false ((t.writeTarget dst q.r).setSr (t.sr.withShift q))

/-- `INC` (R211). -/
def execInc (dst : Rmw XMem) (s : State) : Result := addToTarget (.inc dst) 1 (dst.resolve XMem.addr) s

/-- `DEC` (R212): adding 255 is subtracting 1 modulo 256. -/
def execDec (dst : Rmw XMem) (s : State) : Result := addToTarget (.dec dst) 0xFF (dst.resolve XMem.addr) s

/-- `INX` (R213). -/
def execInx (s : State) : Result := addToReg .inx 1 .x s

/-- `INY` (R214). -/
def execIny (s : State) : Result := addToReg .iny 1 .y s

/-- `DEX` (R215). -/
def execDex (s : State) : Result := addToReg .dex 0xFF .x s

/-- `DEY` (R216). -/
def execDey (s : State) : Result := addToReg .dey 0xFF .y s

/-- `ASL`: the old carry is not used (R217). -/
def execAsl (dst : Rmw XMem) (s : State) : Result :=
  shiftTarget (.asl dst) (fun v _ => aslByte v) (dst.resolve XMem.addr) s

/-- `LSR`: the old carry is not used (R218). -/
def execLsr (dst : Rmw XMem) (s : State) : Result :=
  shiftTarget (.lsr dst) (fun v _ => lsrByte v) (dst.resolve XMem.addr) s

/-- `ROL` (R219). -/
def execRol (dst : Rmw XMem) (s : State) : Result := shiftTarget (.rol dst) rolByte (dst.resolve XMem.addr) s

/-- `ROR` (R220). -/
def execRor (dst : Rmw XMem) (s : State) : Result := shiftTarget (.ror dst) rorByte (dst.resolve XMem.addr) s

end Sys2Proof.Machine
end

