-- ==== Sys2Proof/Machine/Jump.lean ====
section
/-! DEFINITION. Branch, jump, call and return instructions (44 R240 to R253). -/

namespace Sys2Proof.Machine

/-- `branch(cond)` (R240): `PC` to the target when taken; the target is relative to the next instruction (R130). -/
def branch (i : Instr) (d : Byte) (cond : Bool) (s : State) : Result :=
  let t := s.pastOperands i
  complete i s cond (if cond then t.setPc (t.effectiveAddress (.rel d)) else t)

/-- `BPL` (R241). -/
def execBpl (d : Byte) (s : State) : Result := branch (.bpl d) d (!s.sr.n) s

/-- `BMI` (R242). -/
def execBmi (d : Byte) (s : State) : Result := branch (.bmi d) d s.sr.n s

/-- `BVC` (R243). -/
def execBvc (d : Byte) (s : State) : Result := branch (.bvc d) d (!s.sr.v) s

/-- `BVS` (R244). -/
def execBvs (d : Byte) (s : State) : Result := branch (.bvs d) d s.sr.v s

/-- `BCC` (R245). -/
def execBcc (d : Byte) (s : State) : Result := branch (.bcc d) d (!s.sr.c) s

/-- `BCS` (R246). -/
def execBcs (d : Byte) (s : State) : Result := branch (.bcs d) d s.sr.c s

/-- `BNE` (R247). -/
def execBne (d : Byte) (s : State) : Result := branch (.bne d) d (!s.sr.z) s

/-- `BEQ` (R248). -/
def execBeq (d : Byte) (s : State) : Result := branch (.beq d) d s.sr.z s

/-- `BRA` (R249). -/
def execBra (d : Byte) (s : State) : Result := branch (.bra d) d true s

/-- `JMP` (R250). -/
def execJmp (t : JmpMem) (s : State) : Result :=
  let u := s.pastOperands (.jmp t)
  complete (.jmp t) s false (u.setPc (u.effectiveAddress t.addr))

/-- `JSR`: the address of its own last byte is pushed (R251, C4). -/
def execJsr (w : Addr) (s : State) : Result :=
  let t := s.pastOperands (.jsr w)
  complete (.jsr w) s false ((t.pushAddr (t.pc - 1)).setPc w)

/-- `RTS`: the pulled address plus 1 (R252). -/
def execRts (s : State) : Result :=
  let t := s.pastOperands .rts
  complete .rts s false (t.pulledAddr.setPc (t.pullAddr + 1))

/-- `RTI` (R253, R317). -/
def execRti (s : State) : Result := complete .rti s false (s.pastOperands .rti).returnFromHandler

end Sys2Proof.Machine
end

