-- ==== Sys2Proof/Machine/LoadStore.lean ====
section
/-! DEFINITION. Load, store and register-transfer instructions (41 R150 to R162). -/

namespace Sys2Proof.Machine

/-- A load: the operand to the register, `Z` and `N` from it. -/
def loadReg (i : Instr) (r : DataReg) (src : Src AddrMode) (s : State) : Result :=
  let t := s.pastOperands i
  complete i s false (t.putReg r (t.sourceByte src))

/-- A store: the byte to `EA`, no flag; the target is not read. -/
def storeByte (i : Instr) (v : Byte) (a : AddrMode) (s : State) : Result :=
  let t := s.pastOperands i
  complete i s false (t.write (t.effectiveAddress a) v)

/-- A transfer: the byte to the register, `Z` and `N` from it. -/
def transfer (i : Instr) (r : DataReg) (v : Byte) (s : State) : Result :=
  complete i s false ((s.pastOperands i).putReg r v)

/-- `LDA` (R150). -/
def execLda (src : Src AccMem) (s : State) : Result := loadReg (.lda src) .ac (src.resolve AccMem.addr) s

/-- `LDX` (R151). -/
def execLdx (src : Src LdxMem) (s : State) : Result := loadReg (.ldx src) .x (src.resolve LdxMem.addr) s

/-- `LDY` (R152). -/
def execLdy (src : Src XMem) (s : State) : Result := loadReg (.ldy src) .y (src.resolve XMem.addr) s

/-- `STA` (R153). -/
def execSta (m : AccMem) (s : State) : Result := storeByte (.sta m) s.ac m.addr s

/-- `STX` (R154). -/
def execStx (m : StxMem) (s : State) : Result := storeByte (.stx m) s.x m.addr s

/-- `STY` (R155). -/
def execSty (m : StyMem) (s : State) : Result := storeByte (.sty m) s.y m.addr s

/-- `STZ` (R156). -/
def execStz (m : XMem) (s : State) : Result := storeByte (.stz m) 0x00 m.addr s

/-- `TAX` (R157). -/
def execTax (s : State) : Result := transfer .tax .x s.ac s

/-- `TAY` (R158). -/
def execTay (s : State) : Result := transfer .tay .y s.ac s

/-- `TXA` (R159). -/
def execTxa (s : State) : Result := transfer .txa .ac s.x s

/-- `TYA` (R160). -/
def execTya (s : State) : Result := transfer .tya .ac s.y s

/-- `TSX` (R161). -/
def execTsx (s : State) : Result := transfer .tsx .x s.sp s

/-- `TXS`: the one transfer that writes no flag (R162). -/
def execTxs (s : State) : Result := complete .txs s false ((s.pastOperands .txs).setSp s.x)

end Sys2Proof.Machine
end

