-- ==== Sys2Proof/Machine/System.lean ====
section
/-! DEFINITION. Stack, flag and system instructions (45 R270 to R292). -/

namespace Sys2Proof.Machine

/-- A push of one byte (R40); no flag. -/
def pushByte (i : Instr) (v : Byte) (s : State) : Result := complete i s false ((s.pastOperands i).push v)

/-- A pull into a data register, `Z` and `N` from the byte (R41, R272, R276, R277). -/
def pullInto (i : Instr) (r : DataReg) (s : State) : Result :=
  let t := s.pastOperands i
  complete i s false (t.pulled.putReg r t.pullByte)

/-- One named flag written, nothing else (R31, R278 to R284). -/
def writeFlag (i : Instr) (f : Flag) (val : Bool) (s : State) : Result :=
  let t := s.pastOperands i
  complete i s false (t.setSr (t.sr.set f val))

/-- `PHA` (R270). -/
def execPha (s : State) : Result := pushByte .pha s.ac s

/-- `PHP` (R271). -/
def execPhp (s : State) : Result := pushByte .php s.sr.pushed s

/-- `PHX` (R274). -/
def execPhx (s : State) : Result := pushByte .phx s.x s

/-- `PHY` (R275). -/
def execPhy (s : State) : Result := pushByte .phy s.y s

/-- `PLA` (R272). -/
def execPla (s : State) : Result := pullInto .pla .ac s

/-- `PLP`: all eight flags, literally (R273). -/
def execPlp (s : State) : Result :=
  let t := s.pastOperands .plp
  complete .plp s false (t.pulled.setSr (Flags.unpack t.pullByte))

/-- `PLX` (R276). -/
def execPlx (s : State) : Result := pullInto .plx .x s

/-- `PLY` (R277). -/
def execPly (s : State) : Result := pullInto .ply .y s

/-- `CLC` (R278). -/
def execClc (s : State) : Result := writeFlag .clc .c false s

/-- `SEC` (R279). -/
def execSec (s : State) : Result := writeFlag .sec .c true s

/-- `CLI` (R280). -/
def execCli (s : State) : Result := writeFlag .cli .i false s

/-- `SEI` (R281). -/
def execSei (s : State) : Result := writeFlag .sei .i true s

/-- `CLD` (R282). -/
def execCld (s : State) : Result := writeFlag .cld .d false s

/-- `SED` (R283). -/
def execSed (s : State) : Result := writeFlag .sed .d true s

/-- `CLV` (R284). -/
def execClv (s : State) : Result := writeFlag .clv .v false s

/-- `BRK`: the software interrupt, returning to its own address plus 2 (R290, R316, C4). -/
def execBrk (s : State) : Result := complete .brk s false ((s.pastOperands .brk).enterHandler (s.pc + 2))

/-- `NOP` (R291). -/
def execNop (s : State) : Result := complete .nop s false (s.pastOperands .nop)

/-- `INVALID`: one byte, no effect; the result record reports it (R292, R312). -/
def execInvalid (b : Byte) (s : State) : Result := complete (.invalid b) s false (s.pastOperands (.invalid b))

end Sys2Proof.Machine
end

