-- ==== Sys2Proof/Machine/Fetch.lean ====
section
/-! DEFINITION. Fetching the next instruction (40 R110, R111). -/

namespace Sys2Proof.Machine

/-- The `n` bytes from an address on, addresses modulo 65536 (R26, R111). -/
def State.bytesFrom (s : State) (a : Addr) : Nat → List Byte
  | 0 => []
  | n + 1 => s.read a :: State.bytesFrom s (a + 1) n

/-- The instruction at `PC`: the opcode byte, and the following bytes as far as its row takes operand bytes from them; reading
is without effect (R51), so a byte the row does not use is as good as not read (R67). -/
def State.fetch (s : State) : Instr :=
  decodeInstr s.variant (s.read s.pc) (s.read (s.pc + 1)) (s.read (s.pc + 2))

/-- The bytes of a list stored from an address on, as the host's `load_program` does (R53). -/
def State.placeCode (s : State) (bytes : List Byte) : State := s.loadProgram s.pc bytes

end Sys2Proof.Machine
end

