-- ==== Sys2Proof/Machine/Step.lean ====
section
/-! DEFINITION. One step (40 R110): fetch and decode the instruction at `PC`, execute it. `exec` advances `PC` past it. -/

namespace Sys2Proof.Machine

/-- `step` (R110): a function of the state alone (R133). -/
def step (s : State) : Host.Outcome State Fault Refusal := exec s.fetch s

/-- The state with an instruction of `nbits` bits, value `w`, stored where `step` fetches next: its bytes in ascending order at
`PC`, three of them, every bit above `nbits` zero. -/
def State.withFetchWord (s : State) (nbits w : Nat) : State :=
  let u := w % 2 ^ nbits
  s.placeCode [byteAt u 0, byteAt u 1, byteAt u 2]

end Sys2Proof.Machine
end

