-- ==== Sys2Proof/Safety.lean ====
section
/-! DEFINITION. What the claims mean by a sound state and by a clean run. -/

namespace Sys2Proof.Machine

/-- A result record a step can put out (R112, R350, R292): 1 to 7 cycles, counted in `CYC`; `invalid` exactly for `INVALID`, which
has mode `IMP` and costs 1 cycle. -/
def StepResult.legal (r : StepResult) (cyc : Nat) : Bool :=
  decide (1 ≤ r.cycles) && decide (r.cycles ≤ 7) && decide (r.cycles ≤ cyc) &&
    (r.invalid == (r.opcode == .invalid)) &&
    (r.opcode != .invalid || (r.mode == .imp && r.cycles == 1))

/-- The invariant of the machine: the memory is in its canonical form (R44, R68), and the result record, where there is one, is
legal. -/
def State.inv (s : State) : Bool :=
  Memory.wf s.mem &&
    match s.out with
    | none => true
    | some r => r.legal s.cyc

/-- Whether the last step reported an invalid opcode (R312). A claim meant to carry over to a real chip takes the negation as a
premise of every step (93_implementation_defined U2). -/
def State.reportedInvalid (s : State) : Bool :=
  match s.out with
  | none => false
  | some r => r.invalid

end Sys2Proof.Machine
end

