-- ==== Sys2Proof/Certificates/Slice0/Obligations.lean ====
section
/-! DEFINITION. The statements about the machine, each from a numbered rule of spec/. -/

open Sys2Proof Sys2Proof.Machine

/-! ### How a statement says what an instruction does -/

namespace Sys2Proof.Claim

/-- The registers a program has, and the parameter: all of State but the memory, the counter `CYC` and the result record. -/
structure Regs where
  variant : Variant
  pc : Addr
  ac : Byte
  x : Byte
  y : Byte
  sp : Byte
  sr : Flags
deriving DecidableEq, Repr

/-- The registers of a state. -/
def regs (s : State) : Regs :=
  { variant := s.variant, pc := s.pc, ac := s.ac, x := s.x, y := s.y, sp := s.sp, sr := s.sr }

/-- `exec i s` answers a next state with exactly these registers in which every address `a` reads as `rd a`. What is written
`{ regs s with … }` is unchanged but for the fields named, and `rd` is `s.read` where no byte is stored. -/
def Effect (i : Instr) (s : State) (r : Regs) (rd : Addr → Byte) : Prop :=
  ∃ t, exec i s = .next t ∧ regs t = r ∧ ∀ a, t.read a = rd a

/-- The same reading with one byte replaced. -/
def poke (rd : Addr → Byte) (ea : Addr) (v : Byte) : Addr → Byte := fun a => if a = ea then v else rd a

/-- The address of the next instruction (R25). -/
def nextPc (s : State) (i : Instr) : Addr := s.pc + BitVec.ofNat 16 (encode i).length

/-- The byte at `EA` or the immediate (R131). -/
def operandOf (s : State) (i : Instr) (src : Src AddrMode) : Byte := (s.pastOperands i).sourceByte src

/-- `EA` (R113). -/
def eaOf (s : State) (i : Instr) (a : AddrMode) : Addr := (s.pastOperands i).effectiveAddress a

/-- The flags with `Z` and `N` from a value and the others kept (R32). -/
def zn (f : Flags) (v : Byte) : Flags := { f with z := decide (v.toNat = 0), n := decide (128 ≤ v.toNat) }

/-- The address of a byte of the stack page: 0x0100 + p (R23). -/
def page1 (p : Byte) : Addr := BitVec.ofNat 16 (0x100 + p.toNat)

/-- A bool as 0 or 1. -/
def bit (b : Bool) : Nat := if b then 1 else 0

/-! ### Encodings -/

/-- The instruction form `i` is written `op` followed by `operands` and read back from them; where it is a `CMOS` addition the
byte `op` is `INVALID` under `NMOS` and takes no operand byte. -/
def Coded (both : Bool) (i : Instr) (op : Byte) (operands : List Byte) : Prop :=
  encode i = op :: operands ∧
  decode .cmos (op :: operands) = .ok (i, []) ∧
  decode .nmos (op :: operands) = if both then .ok (i, []) else .ok (.invalid op, operands)

/-- The encodings of the memory modes of `LDA` and its like. -/
def AccMemCoded (mk : AccMem → Instr) (zp zpx abs abx aby izx izy izp : Byte) : Prop :=
  ∀ b l h : Byte,
    Coded true (mk (.zp b)) zp [b] ∧ Coded true (mk (.zpx b)) zpx [b] ∧
    Coded true (mk (.abs (cat h l))) abs [l, h] ∧ Coded true (mk (.abx (cat h l))) abx [l, h] ∧
    Coded true (mk (.aby (cat h l))) aby [l, h] ∧
    Coded true (mk (.izx b)) izx [b] ∧ Coded true (mk (.izy b)) izy [b] ∧ Coded false (mk (.izp b)) izp [b]

/-- The encodings of `LDA` and its like, immediate first. -/
def AccCoded (mk : Src AccMem → Instr) (imm zp zpx abs abx aby izx izy izp : Byte) : Prop :=
  (∀ b, Coded true (mk (.imm b)) imm [b]) ∧ AccMemCoded (fun m => mk (.mem m)) zp zpx abs abx aby izx izy izp

/-- The encodings of the modes `ZP ZPX ABS ABX`; `both` for `ZP` and `ABS`, `bothX` for the indexed ones. -/
def XMemCoded (both bothX : Bool) (mk : XMem → Instr) (zp zpx abs abx : Byte) : Prop :=
  ∀ b l h : Byte,
    Coded both (mk (.zp b)) zp [b] ∧ Coded bothX (mk (.zpx b)) zpx [b] ∧
    Coded both (mk (.abs (cat h l))) abs [l, h] ∧ Coded bothX (mk (.abx (cat h l))) abx [l, h]

/-- The encodings of the modes `ZP ABS`. -/
def ZpAbsCoded (both : Bool) (mk : ZpAbs → Instr) (zp abs : Byte) : Prop :=
  ∀ b l h : Byte, Coded both (mk (.zp b)) zp [b] ∧ Coded both (mk (.abs (cat h l))) abs [l, h]

/-- The encodings of a shift, rotate, increment or decrement; `both` for the accumulator form. -/
def RmwCoded (both : Bool) (mk : Rmw XMem → Instr) (acc zp zpx abs abx : Byte) : Prop :=
  Coded both (mk .acc) acc [] ∧ XMemCoded true true (fun m => mk (.mem m)) zp zpx abs abx

/-! ### Branches -/

/-- A branch whose condition is `cond` (R240): the target is relative to the next instruction, and the cost is 2, 3 when taken, 4
when taken into another page. -/
def BranchEffect (i : Instr) (d : Byte) (cond : Bool) (s : State) : Prop :=
  let next := s.pc + 2
  let target := BitVec.ofInt 16 (next.toNat + d.toInt)
  ∃ t, exec i s = .next t ∧
    regs t = { regs s with pc := if cond then target else next } ∧
    (∀ a, t.read a = s.read a) ∧
    (i.wellFormed s.variant = true →
      t.cyc = s.cyc + if cond then (if target.toNat / 256 = next.toNat / 256 then 3 else 4) else 2)

/-! ### Packed decimal -/

/-- Both digits are 0 to 9 (R11). -/
def isBcd (b : Byte) : Prop := b.toNat % 16 ≤ 9 ∧ b.toNat / 16 ≤ 9

/-- The number a packed byte stands for. -/
def dec (b : Byte) : Nat := 10 * (b.toNat / 16) + b.toNat % 16

/-- The packed byte of a number below 100. -/
def bcd (n : Nat) : Byte := BitVec.ofNat 8 (16 * (n / 10) + n % 10)

/-! ### The opcode map, mnemonic by mnemonic (R89, second table) -/

/-- One row of the opcode map. -/
structure Row where
  op : Opcode
  code : Byte
  mode : Mode
  both : Bool
  cyclesNmos : Nat
  cyclesCmos : Nat
  penaltyNmos : Bool
  penaltyCmos : Bool
deriving DecidableEq, Repr

/-- A row valid under both variants with no page penalty. -/
def plain (code : Byte) (mode : Mode) (n : Nat) (op : Opcode) : Row := ⟨op, code, mode, true, n, n, false, false⟩

/-- A row valid under both variants that pays the page-cross cycle. -/
def paying (code : Byte) (mode : Mode) (n : Nat) (op : Opcode) : Row := ⟨op, code, mode, true, n, n, true, true⟩

/-- A row valid under both variants whose timing differs; no penalty under `NMOS`. -/
def differing (code : Byte) (mode : Mode) (n c : Nat) (p : Bool) (op : Opcode) : Row := ⟨op, code, mode, true, n, c, false, p⟩

/-- A row of the `CMOS` additions. -/
def added (code : Byte) (mode : Mode) (c : Nat) (p : Bool) (op : Opcode) : Row := ⟨op, code, mode, false, 1, c, false, p⟩

/-- The rows of one mnemonic. -/
def rows (op : Opcode) (l : List (Opcode → Row)) : List Row := l.map fun f => f op

/-- The 178 rows of the table by mnemonic (R89). -/
def opcodeMap : List Row :=
  rows .adc [plain 0x61 .izx 6, plain 0x65 .zp 3, plain 0x69 .imm 2, plain 0x6D .abs 4, paying 0x71 .izy 5,
    added 0x72 .izp 5 false, plain 0x75 .zpx 4, paying 0x79 .aby 4, paying 0x7D .abx 4] ++
  rows .and [plain 0x21 .izx 6, plain 0x25 .zp 3, plain 0x29 .imm 2, plain 0x2D .abs 4, paying 0x31 .izy 5,
    added 0x32 .izp 5 false, plain 0x35 .zpx 4, paying 0x39 .aby 4, paying 0x3D .abx 4] ++
  rows .asl [plain 0x06 .zp 5, plain 0x0A .acc 2, plain 0x0E .abs 6, plain 0x16 .zpx 6, differing 0x1E .abx 7 6 true] ++
  rows .bcc [plain 0x90 .rel 2] ++
  rows .bcs [plain 0xB0 .rel 2] ++
  rows .beq [plain 0xF0 .rel 2] ++
  rows .bit [plain 0x24 .zp 3, plain 0x2C .abs 4, added 0x34 .zpx 4 false, added 0x3C .abx 4 true,
    added 0x89 .imm 2 false] ++
  rows .bmi [plain 0x30 .rel 2] ++
  rows .bne [plain 0xD0 .rel 2] ++
  rows .bpl [plain 0x10 .rel 2] ++
  rows .bra [added 0x80 .rel 2 false] ++
  rows .brk [plain 0x00 .stk 7] ++
  rows .bvc [plain 0x50 .rel 2] ++
  rows .bvs [plain 0x70 .rel 2] ++
  rows .clc [plain 0x18 .imp 2] ++
  rows .cld [plain 0xD8 .imp 2] ++
  rows .cli [plain 0x58 .imp 2] ++
  rows .clv [plain 0xB8 .imp 2] ++
  rows .cmp [plain 0xC1 .izx 6, plain 0xC5 .zp 3, plain 0xC9 .imm 2, plain 0xCD .abs 4, paying 0xD1 .izy 5,
    added 0xD2 .izp 5 false, plain 0xD5 .zpx 4, paying 0xD9 .aby 4, paying 0xDD .abx 4] ++
  rows .cpx [plain 0xE0 .imm 2, plain 0xE4 .zp 3, plain 0xEC .abs 4] ++
  rows .cpy [plain 0xC0 .imm 2, plain 0xC4 .zp 3, plain 0xCC .abs 4] ++
  rows .dec [added 0x3A .acc 2 false, plain 0xC6 .zp 5, plain 0xCE .abs 6, plain 0xD6 .zpx 6, plain 0xDE .abx 7] ++
  rows .dex [plain 0xCA .imp 2] ++
  rows .dey [plain 0x88 .imp 2] ++
  rows .eor [plain 0x41 .izx 6, plain 0x45 .zp 3, plain 0x49 .imm 2, plain 0x4D .abs 4, paying 0x51 .izy 5,
    added 0x52 .izp 5 false, plain 0x55 .zpx 4, paying 0x59 .aby 4, paying 0x5D .abx 4] ++
  rows .inc [added 0x1A .acc 2 false, plain 0xE6 .zp 5, plain 0xEE .abs 6, plain 0xF6 .zpx 6, plain 0xFE .abx 7] ++
  rows .inx [plain 0xE8 .imp 2] ++
  rows .iny [plain 0xC8 .imp 2] ++
  rows .jmp [plain 0x4C .abs 3, differing 0x6C .ind 5 6 false, added 0x7C .iax 6 false] ++
  rows .jsr [plain 0x20 .abs 6] ++
  rows .lda [plain 0xA1 .izx 6, plain 0xA5 .zp 3, plain 0xA9 .imm 2, plain 0xAD .abs 4, paying 0xB1 .izy 5,
    added 0xB2 .izp 5 false, plain 0xB5 .zpx 4, paying 0xB9 .aby 4, paying 0xBD .abx 4] ++
  rows .ldx [plain 0xA2 .imm 2, plain 0xA6 .zp 3, plain 0xAE .abs 4, plain 0xB6 .zpy 4, paying 0xBE .aby 4] ++
  rows .ldy [plain 0xA0 .imm 2, plain 0xA4 .zp 3, plain 0xAC .abs 4, plain 0xB4 .zpx 4, paying 0xBC .abx 4] ++
  rows .lsr [plain 0x46 .zp 5, plain 0x4A .acc 2, plain 0x4E .abs 6, plain 0x56 .zpx 6, differing 0x5E .abx 7 6 true] ++
  rows .nop [plain 0xEA .imp 2] ++
  rows .ora [plain 0x01 .izx 6, plain 0x05 .zp 3, plain 0x09 .imm 2, plain 0x0D .abs 4, paying 0x11 .izy 5,
    added 0x12 .izp 5 false, plain 0x15 .zpx 4, paying 0x19 .aby 4, paying 0x1D .abx 4] ++
  rows .pha [plain 0x48 .stk 3] ++
  rows .php [plain 0x08 .stk 3] ++
  rows .phx [added 0xDA .stk 3 false] ++
  rows .phy [added 0x5A .stk 3 false] ++
  rows .pla [plain 0x68 .stk 4] ++
  rows .plp [plain 0x28 .stk 4] ++
  rows .plx [added 0xFA .stk 4 false] ++
  rows .ply [added 0x7A .stk 4 false] ++
  rows .rol [plain 0x26 .zp 5, plain 0x2A .acc 2, plain 0x2E .abs 6, plain 0x36 .zpx 6, differing 0x3E .abx 7 6 true] ++
  rows .ror [plain 0x66 .zp 5, plain 0x6A .acc 2, plain 0x6E .abs 6, plain 0x76 .zpx 6, differing 0x7E .abx 7 6 true] ++
  rows .rti [plain 0x40 .stk 6] ++
  rows .rts [plain 0x60 .stk 6] ++
  rows .sbc [plain 0xE1 .izx 6, plain 0xE5 .zp 3, plain 0xE9 .imm 2, plain 0xED .abs 4, paying 0xF1 .izy 5,
    added 0xF2 .izp 5 false, plain 0xF5 .zpx 4, paying 0xF9 .aby 4, paying 0xFD .abx 4] ++
  rows .sec [plain 0x38 .imp 2] ++
  rows .sed [plain 0xF8 .imp 2] ++
  rows .sei [plain 0x78 .imp 2] ++
  rows .sta [plain 0x81 .izx 6, plain 0x85 .zp 3, plain 0x8D .abs 4, plain 0x91 .izy 6, added 0x92 .izp 5 false,
    plain 0x95 .zpx 4, plain 0x99 .aby 5, plain 0x9D .abx 5] ++
  rows .stx [plain 0x86 .zp 3, plain 0x8E .abs 4, plain 0x96 .zpy 4] ++
  rows .sty [plain 0x84 .zp 3, plain 0x8C .abs 4, plain 0x94 .zpx 4] ++
  rows .stz [added 0x64 .zp 3 false, added 0x74 .zpx 4 false, added 0x9C .abs 4 false, added 0x9E .abx 5 false] ++
  rows .tax [plain 0xAA .imp 2] ++
  rows .tay [plain 0xA8 .imp 2] ++
  rows .trb [added 0x14 .zp 5 false, added 0x1C .abs 6 false] ++
  rows .tsb [added 0x04 .zp 5 false, added 0x0C .abs 6 false] ++
  rows .tsx [plain 0xBA .imp 2] ++
  rows .txa [plain 0x8A .imp 2] ++
  rows .txs [plain 0x9A .imp 2] ++
  rows .tya [plain 0x98 .imp 2]

/-- Whether the map has a row for the byte under the variant. -/
def mapped (v : Variant) (b : Byte) : Bool := opcodeMap.any fun r => r.code == b && (r.both || v == .cmos)

/-! ### Cycle counts by class of instruction (R350 to R353) -/

/-- The read class of R351. -/
def readClass : List Opcode := [.lda, .ldx, .ldy, .adc, .sbc, .and, .ora, .eor, .cmp, .cpx, .cpy, .bit]

/-- The stores of R351. -/
def storeClass : List Opcode := [.sta, .stx, .sty, .stz]

/-- The shifts and rotates. -/
def shiftClass : List Opcode := [.asl, .lsr, .rol, .ror]

/-- The read-modify-write class of R351. -/
def rmwClass : List Opcode := [.inc, .dec, .trb, .tsb] ++ shiftClass

/-- The branches. -/
def branchClass : List Opcode := [.bpl, .bmi, .bvc, .bvs, .bcc, .bcs, .bne, .beq, .bra]

/-- `base_cycles` by class and mode: the table of R351, with the `CMOS` differences of R353. -/
def baseOf (v : Variant) (op : Opcode) (m : Mode) : Nat :=
  if op ∈ readClass then
    match m with
    | .imm => 2 | .zp => 3 | .zpx => 4 | .zpy => 4 | .abs => 4 | .abx => 4 | .aby => 4 | .izx => 6 | .izy => 5 | .izp => 5
    | .ind => 0 | .iax => 0 | .acc => 0 | .imp => 0 | .stk => 0 | .rel => 0
  else if op ∈ storeClass then
    match m with
    | .zp => 3 | .zpx => 4 | .zpy => 4 | .abs => 4 | .abx => 5 | .aby => 5 | .izx => 6 | .izy => 6 | .izp => 5
    | .imm => 0 | .ind => 0 | .iax => 0 | .acc => 0 | .imp => 0 | .stk => 0 | .rel => 0
  else if op ∈ rmwClass then
    match m with
    | .acc => 2 | .zp => 5 | .zpx => 6 | .abs => 6
    | .abx => if op ∈ shiftClass ∧ v = .cmos then 6 else 7
    | .imm => 0 | .zpy => 0 | .aby => 0 | .izx => 0 | .izy => 0 | .izp => 0 | .ind => 0 | .iax => 0 | .imp => 0 | .stk => 0
    | .rel => 0
  else if op ∈ [.pha, .php, .phx, .phy] then 3
  else if op ∈ [.pla, .plp, .plx, .ply] then 4
  else if op ∈ [.rts, .rti, .jsr] then 6
  else if op = .brk then 7
  else if op = .jmp then (if m = .abs then 3 else if m = .ind ∧ v = .nmos then 5 else 6)
  else if op = .invalid then 1
  else 2

/-- The rows that pay the page-cross cycle (R352). -/
def paysPage (v : Variant) (op : Opcode) (m : Mode) : Bool :=
  (decide (op ∈ readClass) && decide (m ∈ [Mode.abx, .aby, .izy])) ||
    (v == .cmos && decide (op ∈ shiftClass) && m == .abx)

/-- Whether a page is crossed, said by the carry out of the low byte (R125), or for a branch by the pages of the next
instruction and of the target (R130). -/
def crosses (s : State) (i : Instr) : Bool :=
  match i.operand with
  | .mem (.abx w) => decide (256 ≤ w.toNat % 256 + s.x.toNat)
  | .mem (.aby w) => decide (256 ≤ w.toNat % 256 + s.y.toNat)
  | .mem (.izy b) => decide (256 ≤ (s.read (BitVec.ofNat 16 b.toNat)).toNat + s.y.toNat)
  | .mem (.rel d) =>
    let next := s.pc + 2
    decide ((BitVec.ofInt 16 (next.toNat + d.toInt)).toNat / 256 ≠ next.toNat / 256)
  | .mem (.zp _) | .mem (.zpx _) | .mem (.zpy _) | .mem (.izx _) | .mem (.izp _) | .mem (.abs _) | .mem (.ind _)
  | .mem (.iax _) | .imm _ | .acc | .imp | .stk => false

/-- Whether a branch is taken (R241 to R249). -/
def taken (s : State) (i : Instr) : Bool :=
  match i.opcode with
  | .bpl => !s.sr.n
  | .bmi => s.sr.n
  | .bvc => !s.sr.v
  | .bvs => s.sr.v
  | .bcc => !s.sr.c
  | .bcs => s.sr.c
  | .bne => !s.sr.z
  | .beq => s.sr.z
  | .bra => true
  | _ => false

/-- The cost of a step by R350. -/
def ruleCycles (s : State) (i : Instr) : Nat :=
  baseOf s.variant i.opcode i.mode +
    (if paysPage s.variant i.opcode i.mode ∧ crosses s i then 1 else 0) +
    (if taken s i then 1 else 0) +
    (if taken s i ∧ crosses s i then 1 else 0) +
    (if s.variant = .cmos ∧ (i.opcode = .adc ∨ i.opcode = .sbc) ∧ s.sr.d then 1 else 0)

/-! ### Who writes what (R30, R45, R67) -/

/-- The users of `update_zero_negative` (R30). -/
def znUsers : List Opcode :=
  [.lda, .ldx, .ldy, .tax, .tay, .txa, .tya, .tsx, .pla, .plx, .ply, .and, .ora, .eor, .inc, .dec] ++
  [.inx, .iny, .dex, .dey, .asl, .lsr, .rol, .ror]

/-- The writers of each flag under a variant (R30). -/
def flagWriters (v : Variant) (i : Instr) : Flag → Bool
  | .n => decide (i.opcode ∈ znUsers ++ [.adc, .sbc, .cmp, .cpx, .cpy, .plp, .rti]) ||
      (i.opcode == .bit && i.mode != .imm)
  | .v => decide (i.opcode ∈ [Opcode.adc, .sbc, .clv, .plp, .rti]) || (i.opcode == .bit && i.mode != .imm)
  | .u => decide (i.opcode ∈ [Opcode.plp, .rti])
  | .b => decide (i.opcode ∈ [Opcode.plp, .rti])
  | .d => decide (i.opcode ∈ [Opcode.sed, .cld, .plp, .rti]) || (i.opcode == .brk && v == .cmos)
  | .i => decide (i.opcode ∈ [Opcode.sei, .cli, .brk, .plp, .rti])
  | .z => decide (i.opcode ∈ znUsers ++ [.adc, .sbc, .cmp, .cpx, .cpy, .bit, .trb, .tsb, .plp, .rti])
  | .c => decide (i.opcode ∈ [Opcode.adc, .sbc, .cmp, .cpx, .cpy, .asl, .lsr, .rol, .ror, .sec, .clc, .plp, .rti])

/-- The writers of `AC` (R45). -/
def acWriters (i : Instr) : Bool :=
  decide (i.opcode ∈ [Opcode.lda, .pla, .txa, .tya, .adc, .sbc, .and, .ora, .eor]) ||
    (decide (i.opcode ∈ [Opcode.asl, .lsr, .rol, .ror, .inc, .dec]) && i.mode == .acc)

/-- The writers of `X` (R45). -/
def xWriters (i : Instr) : Bool := decide (i.opcode ∈ [Opcode.ldx, .plx, .tax, .tsx, .inx, .dex])

/-- The writers of `Y` (R45). -/
def yWriters (i : Instr) : Bool := decide (i.opcode ∈ [Opcode.ldy, .ply, .tay, .iny, .dey])

/-- The writers of `SP` (R45): `TXS` and every push and pull. -/
def spWriters (i : Instr) : Bool :=
  decide (i.opcode ∈
    [Opcode.txs, .pha, .php, .phx, .phy, .pla, .plp, .plx, .ply, .jsr, .rts, .rti, .brk])

/-- The addresses an instruction stores to (R67), computed as its meaning computes them. -/
def storesTo (s : State) (i : Instr) : List Addr :=
  match i with
  | .sta m => [eaOf s (.sta m) m.addr]
  | .stx m => [eaOf s (.stx m) m.addr]
  | .sty m => [eaOf s (.sty m) m.addr]
  | .stz m => [eaOf s (.stz m) m.addr]
  | .trb m => [eaOf s (.trb m) m.addr]
  | .tsb m => [eaOf s (.tsb m) m.addr]
  | .inc (.mem m) => [eaOf s (.inc (.mem m)) m.addr]
  | .dec (.mem m) => [eaOf s (.dec (.mem m)) m.addr]
  | .asl (.mem m) => [eaOf s (.asl (.mem m)) m.addr]
  | .lsr (.mem m) => [eaOf s (.lsr (.mem m)) m.addr]
  | .rol (.mem m) => [eaOf s (.rol (.mem m)) m.addr]
  | .ror (.mem m) => [eaOf s (.ror (.mem m)) m.addr]
  | .pha | .php | .phx | .phy => [page1 s.sp]
  | .jsr _ => [page1 s.sp, page1 (s.sp - 1)]
  | .brk => [page1 s.sp, page1 (s.sp - 1), page1 (s.sp - 2)]
  | _ => []

/-- Where the two variants give one instruction different results (R6): the page-end pointer of `JMP`, decimal arithmetic, and
`BRK` with `D` set. -/
def variantMatters (s : State) : Instr → Bool
  | .jmp (.ind w) => w.toNat % 256 == 255
  | .adc _ | .sbc _ | .brk => s.sr.d
  | _ => false

end Sys2Proof.Claim

open Sys2Proof.Claim

/-- For both variants, every instruction that is well formed under the variant (every form of the opcode table with every operand value, and INVALID for every byte outside the valid set) and every list of bytes after it: decoding the encoded bytes gives the instruction back and leaves exactly the bytes after it. (30_encoding.md sections 1 to 5 (R80, R82, R84, R86, R88, R89).) -/
def Obligations.DecodingAnEncodedInstructionGivesItBack : Prop :=
  ∀ (v : Variant) (i : Instr) (rest : List Byte),
    i.wellFormed v = true → decode v (encode i ++ rest) = .ok (i, rest)

/-- For both variants and all bytes op, b1, b2: the decoded instruction is well formed under the variant, and its encoding is the first length bytes of op, b1, b2, the length being 1, 2 or 3. So decoding is total, loses no operand bit, and INVALID has length 1. (30_encoding.md sections 1 to 5 (R80, R83, R84, R88, R89).) -/
def Obligations.EncodingADecodedInstructionGivesItsBytesBack : Prop :=
  ∀ (v : Variant) (op b1 b2 : Byte),
    let i := decodeInstr v op b1 b2
    i.wellFormed v = true ∧ encode i = [op, b1, b2].take i.length ∧ 1 ≤ i.length ∧ i.length ≤ 3

/-- For every row of the opcode map, under each variant that has the row and for any operand bytes, the decoded instruction has the row's mnemonic, mode, base cycle count and page penalty. Every byte the map does not list for a variant decodes to INVALID with mode IMP, length 1, base cycle count 1 and no page penalty. (R84, R88, R89.) -/
def Obligations.DecodeFollowsTheOpcodeMap : Prop :=
  (∀ r ∈ opcodeMap, ∀ (v : Variant) (b1 b2 : Byte), (r.both || v == .cmos) = true →
    let i := decodeInstr v r.code b1 b2
    i.opcode = r.op ∧ i.mode = r.mode ∧
    i.baseCycles v = (match v with | .nmos => r.cyclesNmos | .cmos => r.cyclesCmos) ∧
    i.pagePenalty v = (match v with | .nmos => r.penaltyNmos | .cmos => r.penaltyCmos)) ∧
  (∀ (v : Variant) (op b1 b2 : Byte), mapped v op = false →
    let i := decodeInstr v op b1 b2
    i = .invalid op ∧ i.mode = .imp ∧ i.length = 1 ∧ i.baseCycles v = 1 ∧ i.pagePenalty v = false)

/-- Of the 256 byte values 151 decode to an instruction other than INVALID under NMOS and 178 under CMOS, so 105 and 78 decode to INVALID; a byte valid under NMOS decodes to the same mnemonic and mode under CMOS. (30_encoding.md section 3 (R86).) -/
def Obligations.ValidOpcodeCounts : Prop :=
  ((List.range 256).countP fun n => decide ((decodeInstr .nmos (BitVec.ofNat 8 n) 0 0).opcode ≠ .invalid)) = 151 ∧
  ((List.range 256).countP fun n => decide ((decodeInstr .cmos (BitVec.ofNat 8 n) 0 0).opcode ≠ .invalid)) = 178 ∧
  ∀ op b1 b2 : Byte, (decodeInstr .nmos op b1 b2).opcode ≠ .invalid → decodeInstr .cmos op b1 b2 = decodeInstr .nmos op b1 b2

/-- LDA #$34 is A9 34; LDA $1234,X is BD 34 12; STA ($20),Y is 91 20; JMP ($FFFC) is 6C FC FF; BNE with displacement FA is D0 FA; ROR A is 6A; BRK is 00 and takes no operand byte. (30_encoding.md sections 5 and 6 (R89, R91).) -/
def Obligations.SampleWordsDecodeAsWritten : Prop :=
  ∀ v : Variant,
    decode v [0xA9, 0x34] = .ok (.lda (.imm 0x34), []) ∧
    decode v [0xBD, 0x34, 0x12] = .ok (.lda (.mem (.abx 0x1234)), []) ∧
    decode v [0x91, 0x20] = .ok (.sta (.izy 0x20), []) ∧
    decode v [0x6C, 0xFC, 0xFF] = .ok (.jmp (.ind 0xFFFC), []) ∧
    decode v [0xD0, 0xFA] = .ok (.bne 0xFA, []) ∧
    decode v [0x6A] = .ok (.ror .acc, []) ∧
    decode v [0x00, 0xEA] = .ok (.brk, [0xEA])

/-- If the three bytes from PC on (addresses modulo 65536) decode to the instruction i under the state's variant, then step at that state is exec i at that state: exec itself moves PC past the instruction. (40_step_and_addressing.md section 1 (R110, R111).) -/
def Obligations.StepRunsTheDecodedInstruction : Prop :=
  ∀ (s : State) (i : Instr) (rest : List Byte),
    decode s.variant (s.bytesFrom s.pc 3) = .ok (i, rest) → step s = exec i s

/-- If i is well formed under the state's variant and the bytes from PC on, as many as i is long, are the encoding of i, then step at that state is exec i at that state, whatever bytes follow. (40_step_and_addressing.md section 1 (R110, R111), 30_encoding.md section 1 (R80).) -/
def Obligations.StepRunsTheEncodedInstructionAtPc : Prop :=
  ∀ (s : State) (i : Instr),
    i.wellFormed s.variant = true → s.bytesFrom s.pc i.length = encode i → step s = exec i s

/-- The instruction a step fetches is decoded from the byte at PC and the bytes at the two following addresses, reduced modulo 65536: an instruction at 0xFFFF takes its operand bytes from 0x0000 and 0x0001. (10_state.md section 3 (R26), 40_step_and_addressing.md section 1 (R111).) -/
def Obligations.FetchReadsConsecutiveAddressesModulo65536 : Prop :=
  (∀ s : State, s.fetch =
    decodeInstr s.variant (Memory.read s.mem s.pc.toNat) (Memory.read s.mem ((s.pc.toNat + 1) % 65536))
      (Memory.read s.mem ((s.pc.toNat + 2) % 65536))) ∧
  ∀ s : State, s.pc = 0xFFFF → s.fetch = decodeInstr s.variant (s.read 0xFFFF) (s.read 0x0000) (s.read 0x0001)

/-- From every state and every memory content step answers a next state, never a fault and never a refusal. The parameter VARIANT is unchanged and CYC is larger by at least 1 and at most 7. (40_step_and_addressing.md section 1 (R110), 60_exceptions.md section 1 (R310), 00_scope.md section 3 (R6).) -/
def Obligations.EveryStepCompletes : Prop :=
  ∀ s : State, ∃ t, step s = .next t ∧ t.variant = s.variant ∧ s.cyc + 1 ≤ t.cyc ∧ t.cyc ≤ s.cyc + 7

/-- The invariant says that the memory is in its canonical form (addresses strictly rising and below 65536, no listed 0) and that the result record, where there is one, is legal: 1 to 7 cycles, counted in CYC, invalid exactly for INVALID, and then mode IMP and 1 cycle. From every state with the invariant, reached or not, whatever state step answers has it. The canonical form and the place of the record in the state are the model's own (log entries 2 and 7). (20_memory.md section 7 (R68), 40_step_and_addressing.md section 1 (R112), 70_reset_and_hazards.md section 4 (R350).) -/
def Obligations.EveryStepKeepsTheInvariant : Prop :=
  ∀ s t : State, s.inv = true → step s = .next t → t.inv = true

/-- The machine right after reset has a canonical memory and no result record, so it meets the invariant that every step keeps; the operation reset takes every state with the invariant to one with it. The form of the invariant is the model's own (log entries 2 and 7). (70_reset_and_hazards.md section 1 (R340), 20_memory.md section 7 (R68).) -/
def Obligations.ResetStateMeetsTheInvariant : Prop :=
  State.reset.inv = true ∧ ∀ s : State, s.inv = true → s.applyReset.inv = true

/-- The operation reset from any state: SP = 0xFF, AC = X = Y = 0, PC the little-endian word at 0xFFFC and 0xFFFD, I, B and U 1 and the other flags 0 (packed 0x34), CYC 0, every byte of memory unchanged. The variant is kept and no result record is left (the last two are the model's own choice, log entries 1 and 2). (10_state.md section 8 (R43), 70_reset_and_hazards.md section 1 (R340).) -/
def Obligations.ResetEstablishesItsState : Prop :=
  ∀ s : State,
    let t := s.applyReset
    t.sp = 0xFF ∧ t.ac = 0x00 ∧ t.x = 0x00 ∧ t.y = 0x00 ∧
    t.pc.toNat = 256 * (s.read 0xFFFD).toNat + (s.read 0xFFFC).toNat ∧
    t.sr = { n := false, v := false, u := true, b := true, d := false, i := true, z := false, c := false } ∧
    t.sr.pack = 0x34 ∧ t.cyc = 0 ∧ (∀ a, t.read a = s.read a) ∧ t.variant = s.variant ∧ t.out = none

/-- Two states of one variant whose bytes at 0xFFFC and 0xFFFD agree have the same registers, flags, counter and record after reset. Resetting twice gives the same state as resetting once. The step after reset runs the instruction decoded from the bytes at the vector's address. (70_reset_and_hazards.md section 1 (R341, R343).) -/
def Obligations.ResetDependsOnTheVectorAlone : Prop :=
  (∀ s t : State, s.variant = t.variant → s.read 0xFFFC = t.read 0xFFFC → s.read 0xFFFD = t.read 0xFFFD →
    regs s.applyReset = regs t.applyReset ∧ s.applyReset.cyc = t.applyReset.cyc ∧ s.applyReset.out = t.applyReset.out) ∧
  (∀ s : State, s.applyReset.applyReset = s.applyReset) ∧
  (∀ s : State,
    let entry := cat (s.read 0xFFFD) (s.read 0xFFFC)
    step s.applyReset =
      exec (decodeInstr s.variant (s.read entry) (s.read (entry + 1)) (s.read (entry + 2))) s.applyReset)

/-- Every state with nothing in memory (every byte 0) and the reset state's variant becomes State.reset under the operation reset: the entry point is 0x0000, every byte reads 0 and the instruction fetched is BRK. The variant of State.reset is the model's choice (log entry 1). (20_memory.md section 7 (R68), 70_reset_and_hazards.md section 1 (R343).) -/
def Obligations.ResetStateIsResetOfZeroMemory : Prop :=
  (∀ s : State, s.mem = [] → s.variant = resetVariant → s.applyReset = State.reset) ∧
  State.reset.pc = 0x0000 ∧ (∀ a, State.reset.read a = 0x00) ∧ State.reset.fetch = .brk

/-- For an image of at most 65536 bytes, after load_program byte i of the image is at address base + i modulo 65536, every other address and every register, counter and record is unchanged; an image that does not cover 0xFFFC and 0xFFFD leaves the reset vector as it was. For an image of any length the effect is that of storing its bytes one after another. (R53.) -/
def Obligations.LoadProgramStoresItsBytes : Prop :=
  (∀ (s : State) (base : Addr) (bytes : List Byte), bytes.length ≤ 65536 →
    (∀ k (h : k < bytes.length), (s.loadProgram base bytes).read (base + BitVec.ofNat 16 k) = bytes[k]) ∧
    (∀ a : Addr, (∀ k < bytes.length, a ≠ base + BitVec.ofNat 16 k) → (s.loadProgram base bytes).read a = s.read a)) ∧
  (∀ (s : State) (base : Addr) (bytes : List Byte),
    regs (s.loadProgram base bytes) = regs s ∧ (s.loadProgram base bytes).cyc = s.cyc ∧
    (s.loadProgram base bytes).out = s.out) ∧
  (∀ (s : State) (base : Addr) (b : Byte) (bytes : List Byte),
    s.loadProgram base (b :: bytes) = (s.write base b).loadProgram (base + 1) bytes)

/-- MemRead16 at an address gives 256 times the byte at the next address modulo 65536 plus the byte at the address; the page-zero form takes its high byte from the next address modulo 256, so the pointer at 0xFF has its high byte at 0x0000. (R55, R56.) -/
def Obligations.WordsInMemoryAreLittleEndian : Prop :=
  (∀ (s : State) (a : Addr),
    (s.read16 a).toNat =
      256 * (Memory.read s.mem ((a.toNat + 1) % 65536)).toNat + (Memory.read s.mem a.toNat).toNat) ∧
  ∀ (s : State) (p : Byte),
    (s.read16zp p).toNat =
      256 * (Memory.read s.mem ((p.toNat + 1) % 256)).toNat + (Memory.read s.mem p.toNat).toNat

/-- The canonical form (the model's own, log entry 7) is unique: if two memories meet it and every one of the 65536 addresses reads alike in both, they are equal data. (10_state.md section 9 (R44), 20_memory.md section 7 (R68).) -/
def Obligations.CanonicalMemoriesThatReadAlikeAreEqual : Prop :=
  ∀ m n : Memory, Memory.wf m = true → Memory.wf n = true →
    (∀ a < 65536, Memory.read m a = Memory.read n a) → m = n

/-- push stores at 0x0100 + SP with the old SP, whose address is always in 0x0100 to 0x01FF, and leaves SP - 1 modulo 256, no flag and no other register changed; pull leaves SP + 1 modulo 256 and returns the byte at 0x0100 plus that, changing nothing else; after a push a pull returns the byte pushed and restores SP. With SP = 0x00 a push writes 0x0100 and leaves 0xFF; with SP = 0xFF a pull reads 0x0100 and leaves 0x00. (R40, R41.) -/
def Obligations.PushAndPullWorkTheStackPage : Prop :=
  (∀ (s : State) (v : Byte),
    regs (s.push v) = { regs s with sp := BitVec.ofInt 8 (s.sp.toNat - 1) } ∧
    (∀ a, (s.push v).read a = poke s.read (page1 s.sp) v a) ∧
    0x0100 ≤ (page1 s.sp).toNat ∧ (page1 s.sp).toNat ≤ 0x01FF ∧
    (s.push v).pullByte = v ∧ (s.push v).pulled.sp = s.sp) ∧
  (∀ s : State,
    regs s.pulled = { regs s with sp := BitVec.ofNat 8 (s.sp.toNat + 1) } ∧ (∀ a, s.pulled.read a = s.read a) ∧
    s.pullByte = s.read (page1 (BitVec.ofNat 8 (s.sp.toNat + 1)))) ∧
  (∀ (s : State) (v : Byte), s.sp = 0x00 → (s.push v).read 0x0100 = v ∧ (s.push v).sp = 0xFF) ∧
  (∀ s : State, s.sp = 0xFF → s.pullByte = s.read 0x0100 ∧ s.pulled.sp = 0x00)

/-- pack_sr puts N V U B D I Z C in bits 7 to 0; the byte pushed is the same with bits 5 and 4 forced to 1; unpack_sr takes every flag literally from its bit, and unpacking a packed byte and packing an unpacked one change nothing. set_flag writes the named flag and no other; update_zero_negative writes Z and N from a byte and no other flag. (R29, R31, R32, R33, R34.) -/
def Obligations.StatusBytePacksAndUnpacks : Prop :=
  (∀ f : Flags,
    f.pack.toNat = 0x80 * bit f.n + 0x40 * bit f.v + 0x20 * bit f.u + 0x10 * bit f.b + 0x08 * bit f.d +
      0x04 * bit f.i + 0x02 * bit f.z + bit f.c ∧
    f.pushed = f.pack ||| 0x30 ∧
    f.pushed.toNat = 0x80 * bit f.n + 0x40 * bit f.v + 0x30 + 0x08 * bit f.d + 0x04 * bit f.i + 0x02 * bit f.z + bit f.c ∧
    Flags.unpack f.pack = f) ∧
  (∀ b : Byte,
    Flags.unpack b =
      { n := b.getLsbD 7, v := b.getLsbD 6, u := b.getLsbD 5, b := b.getLsbD 4
        d := b.getLsbD 3, i := b.getLsbD 2, z := b.getLsbD 1, c := b.getLsbD 0 } ∧
    (Flags.unpack b).pack = b) ∧
  (∀ (f : Flags) (g h : Flag) (val : Bool), (f.set g val).get h = if h = g then val else f.get h) ∧
  (∀ (f : Flags) (v : Byte), f.updateZeroNegative v = zn f v)

/-- For every instruction, every state and every flag: if the instruction is not in the flag's list of writers (BIT immediate is none of N and V; BRK writes D under CMOS only), the flag after exec is the flag before. (10_state.md section 4 (R30, R36).) -/
def Obligations.EachFlagChangesOnlyUnderItsWriters : Prop :=
  ∀ (i : Instr) (s t : State) (f : Flag),
    exec i s = .next t → flagWriters s.variant i f = false → t.sr.get f = s.sr.get f

/-- For every instruction and every state: AC, X, Y and SP each change only under the instructions the register table lists as their writers (the shifts, INC and DEC write AC in the accumulator form only), and the variant never changes. (10_state.md section 10 (R45).) -/
def Obligations.EachRegisterChangesOnlyUnderItsWriters : Prop :=
  ∀ (i : Instr) (s t : State), exec i s = .next t →
    (acWriters i = false → t.ac = s.ac) ∧ (xWriters i = false → t.x = s.x) ∧
    (yWriters i = false → t.y = s.y) ∧ (spWriters i = false → t.sp = s.sp) ∧ t.variant = s.variant

/-- For every instruction and every state, the addresses stored to are computed as the meaning computes them: EA for a store, a read-modify-write on memory, TRB and TSB; one, two or three stack bytes for a push, JSR and BRK; none for any other form. Every other address reads after exec as it read before. (20_memory.md section 6 (R67).) -/
def Obligations.OnlyTheStoredBytesOfMemoryChange : Prop :=
  ∀ (i : Instr) (s t : State) (a : Addr),
    exec i s = .next t → a ∉ storesTo s i → t.read a = s.read a

/-- Changing the live U and B of the starting state changes nothing in the state after any instruction but those two flags themselves, which are as they were unless the instruction is PLP or RTI, and then come from the pulled byte alone. (10_state.md section 4 (R35).) -/
def Obligations.LiveIgnoredAndBreakAreNeverRead : Prop :=
  ∀ (i : Instr) (s : State) (u b : Bool), ∃ t,
    exec i s = .next t ∧
    exec i { s with sr := { s.sr with u := u, b := b } } =
      .next (if i.opcode = .plp ∨ i.opcode = .rti then t else { t with sr := { t.sr with u := u, b := b } })

/-- Starting a step with another cycle count and another result record gives the same next state but for the counter, which grows by the same amount: no register, flag, memory byte or new record depends on either. That the record is a field of the state is the model's own (log entry 2). (10_state.md sections 5 and 6 (R37, R39), 70_reset_and_hazards.md section 4 (R354).) -/
def Obligations.CounterAndRecordAreOutputsOnly : Prop :=
  ∀ (s t : State) (n : Nat) (r : Option StepResult), step s = .next t →
    step { s with cyc := n, out := r } = .next { t with cyc := n + (t.cyc - s.cyc) }

/-- For every instruction and state, unless it is JMP indirect with a pointer whose low byte is FF, or ADC, SBC or BRK with the decimal flag set, exec under NMOS and exec under CMOS answer states with the same registers, flags and memory. (00_scope.md section 3 (R6), 42_arithmetic_logic.md section 1 (R182, R183), 40_step_and_addressing.md section 2 (R126).) -/
def Obligations.VariantsAgreeOnTheCommonInstructions : Prop :=
  ∀ (i : Instr) (s : State), variantMatters s i = false → ∃ t u,
    exec i { s with variant := .nmos } = .next t ∧ exec i { s with variant := .cmos } = .next u ∧
    { regs t with variant := .cmos } = regs u ∧ ∀ a, t.read a = u.read a

/-- For every instruction well formed under the state's variant, exec answers a next state in which CYC has grown by n and the record is n cycles, invalid exactly for INVALID, the instruction's opcode and its mode, where n is the class and mode table's base count, plus one for a page crossed on a row that pays it, plus one for a taken branch and one more if it crosses a page, plus one for ADC and SBC in decimal mode under CMOS; n is at least 1 and at most 7. (R112, R350, R351, R352.) -/
def Obligations.ResultRecordAndCyclesFollowTheRules : Prop :=
  ∀ (i : Instr) (s : State), i.wellFormed s.variant = true → ∃ t,
    exec i s = .next t ∧ t.cyc = s.cyc + ruleCycles s i ∧
    t.out = some { cycles := ruleCycles s i, invalid := decide (i.opcode = .invalid), opcode := i.opcode, mode := i.mode } ∧
    1 ≤ ruleCycles s i ∧ ruleCycles s i ≤ 7

/-- EA of ZP is the operand byte; of ZPX the operand byte plus X modulo 256; of ZPY plus Y modulo 256; none of the three crosses a page. With X = 0xFF and base 0x80 the address is 0x7F. (R115, R116, R117.) -/
def Obligations.ZeroPageModesStayInPageZero : Prop :=
  (∀ (s : State) (b : Byte),
    (s.effectiveAddress (.zp b)).toNat = b.toNat ∧
    (s.effectiveAddress (.zpx b)).toNat = (b.toNat + s.x.toNat) % 256 ∧
    (s.effectiveAddress (.zpy b)).toNat = (b.toNat + s.y.toNat) % 256 ∧
    s.modeCrossed (.zp b) = false ∧ s.modeCrossed (.zpx b) = false ∧ s.modeCrossed (.zpy b) = false ∧
    (AddrMode.zp b).bytes = [b] ∧ (AddrMode.zpx b).bytes = [b] ∧ (AddrMode.zpy b).bytes = [b]) ∧
  ∀ s : State, s.x = 0xFF → s.effectiveAddress (.zpx 0x80) = 0x007F

/-- The pointer of IZX is the operand byte plus X modulo 256, that of IZY and IZP the operand byte; the pointer's low byte is at it and the high byte at the next address modulo 256. EA of IZX and IZP is the pointer's word, EA of IZY that word plus Y modulo 65536, and IZY crosses a page exactly when that changes the high byte. Each has one operand byte. (R118, R119, R120.) -/
def Obligations.ZeroPagePointerModes : Prop :=
  ∀ (s : State) (b : Byte),
    let word := fun p : Nat =>
      256 * (Memory.read s.mem ((p + 1) % 256)).toNat + (Memory.read s.mem p).toNat
    (s.effectiveAddress (.izx b)).toNat = word ((b.toNat + s.x.toNat) % 256) ∧
    (s.effectiveAddress (.izp b)).toNat = word b.toNat ∧
    (s.effectiveAddress (.izy b)).toNat = (word b.toNat + s.y.toNat) % 65536 ∧
    s.modeCrossed (.izx b) = false ∧ s.modeCrossed (.izp b) = false ∧
    s.modeCrossed (.izy b) = decide (word b.toNat / 256 ≠ (word b.toNat + s.y.toNat) % 65536 / 256) ∧
    (AddrMode.izx b).bytes = [b] ∧ (AddrMode.izy b).bytes = [b] ∧ (AddrMode.izp b).bytes = [b]

/-- The two operand bytes l and h give the base 256 h + l; EA of ABS is the base, of ABX the base plus X modulo 65536, of ABY plus Y modulo 65536; ABX and ABY cross a page exactly when the high byte changes, ABS never. (R121, R122, R123.) -/
def Obligations.AbsoluteModes : Prop :=
  ∀ (s : State) (l h : Byte),
    let base := 256 * h.toNat + l.toNat
    (s.effectiveAddress (.abs (cat h l))).toNat = base ∧
    (s.effectiveAddress (.abx (cat h l))).toNat = (base + s.x.toNat) % 65536 ∧
    (s.effectiveAddress (.aby (cat h l))).toNat = (base + s.y.toNat) % 65536 ∧
    s.modeCrossed (.abs (cat h l)) = false ∧
    s.modeCrossed (.abx (cat h l)) = decide (h.toNat ≠ (base + s.x.toNat) % 65536 / 256) ∧
    s.modeCrossed (.aby (cat h l)) = decide (h.toNat ≠ (base + s.y.toNat) % 65536 / 256) ∧
    (AddrMode.abs (cat h l)).bytes = [l, h] ∧ (AddrMode.abx (cat h l)).bytes = [l, h] ∧
    (AddrMode.aby (cat h l)).bytes = [l, h]

/-- With the operand bytes l and h, EA of IND has its low byte at 256 h + l and its high byte, under NMOS, at 256 h + (l + 1 modulo 256), under CMOS, at the next address modulo 65536; EA of IAX is the word at 256 h + l + X modulo 65536, its high byte at the next address modulo 65536. Neither crosses a page. (R126, R127.) -/
def Obligations.IndirectJumpModes : Prop :=
  ∀ (s : State) (l h : Byte),
    let at16 := fun (p q : Nat) => 256 * (Memory.read s.mem q).toNat + (Memory.read s.mem p).toNat
    let ptr := 256 * h.toNat + l.toNat
    let ptrX := (ptr + s.x.toNat) % 65536
    (s.effectiveAddress (.ind (cat h l))).toNat =
      (match s.variant with
        | .nmos => at16 ptr (256 * h.toNat + (l.toNat + 1) % 256)
        | .cmos => at16 ptr ((ptr + 1) % 65536)) ∧
    (s.effectiveAddress (.iax (cat h l))).toNat = at16 ptrX ((ptrX + 1) % 65536) ∧
    s.modeCrossed (.ind (cat h l)) = false ∧ s.modeCrossed (.iax (cat h l)) = false ∧
    (AddrMode.ind (cat h l)).bytes = [l, h] ∧ (AddrMode.iax (cat h l)).bytes = [l, h]

/-- With PC past the operand, EA of REL is PC plus the displacement read as a signed number, modulo 65536, and it crosses a page exactly when the high bytes of EA and PC differ. For ABX, ABY and IZY page_crossed is 1 exactly when the low byte of the base plus the index is 256 or more. (40_step_and_addressing.md section 2 (R125, R130).) -/
def Obligations.RelativeModeAndPageCrossing : Prop :=
  (∀ (s : State) (d : Byte),
    s.effectiveAddress (.rel d) = BitVec.ofInt 16 (s.pc.toNat + d.toInt) ∧
    s.modeCrossed (.rel d) =
      decide (s.pc.toNat / 256 ≠ (BitVec.ofInt 16 (s.pc.toNat + d.toInt)).toNat / 256)) ∧
  (∀ (s : State) (w : Addr),
    s.modeCrossed (.abx w) = decide (256 ≤ w.toNat % 256 + s.x.toNat) ∧
    s.modeCrossed (.aby w) = decide (256 ≤ w.toNat % 256 + s.y.toNat)) ∧
  ∀ (s : State) (b : Byte),
    s.modeCrossed (.izy b) = decide (256 ≤ (Memory.read s.mem b.toNat).toNat + s.y.toNat)

/-- LDA, LDX and LDY in each of their encodings: exec answers a next state in which the register holds the operand (the immediate byte, or the byte at EA), Z and N are from it, PC is at the next instruction, and every other register, flag and byte of memory is unchanged. LDA immediate costs 2 cycles. (R150, R151, R152.) -/
def Obligations.LoadsPutTheOperandInTheRegister : Prop :=
  AccCoded .lda 0xA9 0xA5 0xB5 0xAD 0xBD 0xB9 0xA1 0xB1 0xB2 ∧
  (∀ b l h : Byte,
    Coded true (.ldx (.imm b)) 0xA2 [b] ∧ Coded true (.ldx (.mem (.zp b))) 0xA6 [b] ∧
    Coded true (.ldx (.mem (.zpy b))) 0xB6 [b] ∧ Coded true (.ldx (.mem (.abs (cat h l)))) 0xAE [l, h] ∧
    Coded true (.ldx (.mem (.aby (cat h l)))) 0xBE [l, h] ∧ Coded true (.ldy (.imm b)) 0xA0 [b]) ∧
  XMemCoded true true (fun m => .ldy (.mem m)) 0xA4 0xB4 0xAC 0xBC ∧
  (∀ (src : Src AccMem) (s : State),
    let m := operandOf s (.lda src) (src.resolve AccMem.addr)
    Effect (.lda src) s { regs s with pc := nextPc s (.lda src), ac := m, sr := zn s.sr m } s.read) ∧
  (∀ (src : Src LdxMem) (s : State),
    let m := operandOf s (.ldx src) (src.resolve LdxMem.addr)
    Effect (.ldx src) s { regs s with pc := nextPc s (.ldx src), x := m, sr := zn s.sr m } s.read) ∧
  (∀ (src : Src XMem) (s : State),
    let m := operandOf s (.ldy src) (src.resolve XMem.addr)
    Effect (.ldy src) s { regs s with pc := nextPc s (.ldy src), y := m, sr := zn s.sr m } s.read) ∧
  ∀ (b : Byte) (s : State), ∃ t, exec (.lda (.imm b)) s = .next t ∧ t.cyc = s.cyc + 2

/-- STA, STX, STY and STZ in each of their encodings: exec answers a next state in which the byte at EA is AC, X, Y or 0, every other byte of memory, every register but PC and every flag is unchanged, and PC is at the next instruction. No form of STA or STZ pays the page-cross cycle. (R153, R154, R155, R156.) -/
def Obligations.StoresWriteOneByte : Prop :=
  AccMemCoded .sta 0x85 0x95 0x8D 0x9D 0x99 0x81 0x91 0x92 ∧
  (∀ b l h : Byte,
    Coded true (.stx (.zp b)) 0x86 [b] ∧ Coded true (.stx (.zpy b)) 0x96 [b] ∧ Coded true (.stx (.abs (cat h l))) 0x8E [l, h] ∧
    Coded true (.sty (.zp b)) 0x84 [b] ∧ Coded true (.sty (.zpx b)) 0x94 [b] ∧ Coded true (.sty (.abs (cat h l))) 0x8C [l, h]) ∧
  XMemCoded false false .stz 0x64 0x74 0x9C 0x9E ∧
  (∀ (m : AccMem) (s : State),
    Effect (.sta m) s { regs s with pc := nextPc s (.sta m) } (poke s.read (eaOf s (.sta m) m.addr) s.ac)) ∧
  (∀ (m : StxMem) (s : State),
    Effect (.stx m) s { regs s with pc := nextPc s (.stx m) } (poke s.read (eaOf s (.stx m) m.addr) s.x)) ∧
  (∀ (m : StyMem) (s : State),
    Effect (.sty m) s { regs s with pc := nextPc s (.sty m) } (poke s.read (eaOf s (.sty m) m.addr) s.y)) ∧
  (∀ (m : XMem) (s : State),
    Effect (.stz m) s { regs s with pc := nextPc s (.stz m) } (poke s.read (eaOf s (.stz m) m.addr) 0x00)) ∧
  (∀ (m : AccMem) (v : Variant), (Instr.sta m).pagePenalty v = false) ∧
  ∀ (m : XMem) (v : Variant), (Instr.stz m).pagePenalty v = false

/-- Each transfer copies its source register to its destination, leaves memory and every other register as it was, and moves PC by 1; Z and N come from the value but for TXS, which writes no flag. (R157, R158, R159, R160, R161, R162.) -/
def Obligations.TransfersCopyARegister : Prop :=
  Coded true .tax 0xAA [] ∧ Coded true .tay 0xA8 [] ∧ Coded true .txa 0x8A [] ∧ Coded true .tya 0x98 [] ∧
  Coded true .tsx 0xBA [] ∧ Coded true .txs 0x9A [] ∧
  ∀ s : State,
    Effect .tax s { regs s with pc := s.pc + 1, x := s.ac, sr := zn s.sr s.ac } s.read ∧
    Effect .tay s { regs s with pc := s.pc + 1, y := s.ac, sr := zn s.sr s.ac } s.read ∧
    Effect .txa s { regs s with pc := s.pc + 1, ac := s.x, sr := zn s.sr s.x } s.read ∧
    Effect .tya s { regs s with pc := s.pc + 1, ac := s.y, sr := zn s.sr s.y } s.read ∧
    Effect .tsx s { regs s with pc := s.pc + 1, x := s.sp, sr := zn s.sr s.sp } s.read ∧
    Effect .txs s { regs s with pc := s.pc + 1, sp := s.x } s.read

/-- For all bytes a, m and carry c: the result is a + m + c modulo 256, C is 1 exactly when the sum is 256 or more, V exactly when the sum of the two signed values and the carry lies outside -128 to 127, which is when a and m agree in bit 7 and the result does not, Z when the result is 0, N its bit 7. (R180.) -/
def Obligations.BinaryAdditionIsExact : Prop :=
  ∀ (a m : Byte) (c : Bool),
    let q := adcBin a m c
    let sum := a.toNat + m.toNat + bit c
    let signed := a.toInt + m.toInt + bit c
    q.r.toNat = sum % 256 ∧ q.c = decide (256 ≤ sum) ∧ q.v = decide (signed < -128 ∨ 127 < signed) ∧
    q.v = (((a ^^^ q.r) &&& (m ^^^ q.r) &&& 0x80) != 0) ∧
    q.v = decide (a.getLsbD 7 = m.getLsbD 7 ∧ q.r.getLsbD 7 ≠ a.getLsbD 7) ∧
    q.z = decide (sum % 256 = 0) ∧ q.n = decide (128 ≤ sum % 256)

/-- For all bytes a, m and carry c: subtraction is addition of the complement of m; the result is a - m - (1 - c) modulo 256, C is 1 exactly when that difference is not negative, V exactly when the signed difference lies outside -128 to 127, Z and N from the result. (R181.) -/
def Obligations.BinarySubtractionIsExact : Prop :=
  ∀ (a m : Byte) (c : Bool),
    let q := sbcBin a m c
    let diff : Int := (a.toNat : Int) - m.toNat - (1 - bit c)
    let signed := a.toInt - m.toInt - (1 - bit c)
    q = adcBin a (m ^^^ 0xFF) c ∧
    (q.r.toNat : Int) = diff % 256 ∧ q.c = decide (0 ≤ diff) ∧ q.v = decide (signed < -128 ∨ 127 < signed) ∧
    q.z = decide (q.r.toNat = 0) ∧ q.n = decide (128 ≤ q.r.toNat)

/-- For all bytes and carry and both variants the result byte, C, V, Z and N are those of the rule's pseudocode: low digits added and adjusted, high digits added, N and V from the sum before the high adjust, C and the result after it; under NMOS Z is that of the binary sum and N that of the intermediate, under CMOS both are of the result. (42_arithmetic_logic.md section 1 (R182, the pseudocode).) -/
def Obligations.DecimalAdditionFollowsTheAlgorithm : Prop :=
  ∀ (a m : Byte) (c : Bool) (v : Variant),
    let q := adcDec a m c v
    let al0 := (a.toNat &&& 0x0F) + (m.toNat &&& 0x0F) + bit c
    let al := if 0x0A ≤ al0 then ((al0 + 0x06) &&& 0x0F) + 0x10 else al0
    let t := (a.toNat &&& 0xF0) + (m.toNat &&& 0xF0) + al
    let t' := if 0xA0 ≤ t then t + 0x60 else t
    q.r.toNat = t' % 256 ∧ q.c = decide (0x100 ≤ t') ∧
    q.v = decide (((a.toNat ^^^ t) &&& (m.toNat ^^^ t)) &&& 0x80 ≠ 0) ∧
    q.z = (match v with
      | .nmos => decide ((a.toNat + m.toNat + bit c) % 256 = 0)
      | .cmos => decide (t' % 256 = 0)) ∧
    q.n = (match v with
      | .nmos => t.testBit 7
      | .cmos => decide (128 ≤ t' % 256))

/-- For all bytes and carry: under NMOS the low difference is adjusted by 6 within its digit when negative and the whole by 0x60 when negative, and all four flags are those of the binary subtraction; under CMOS the whole difference is lowered by 0x60 when negative and by 6 when the low difference is negative, C and V are those of the binary subtraction and Z and N of the result. (42_arithmetic_logic.md section 1 (R183, the pseudocode).) -/
def Obligations.DecimalSubtractionFollowsTheAlgorithm : Prop :=
  ∀ (a m : Byte) (c : Bool),
    let bin := sbcBin a m c
    let al : Int := ((a.toNat &&& 0x0F : Nat) : Int) - ((m.toNat &&& 0x0F : Nat) : Int) + bit c - 1
    (let q := sbcDec a m c .nmos
     let al' := if al < 0 then ((al - 0x06) % 16) - 0x10 else al
     let t := ((a.toNat &&& 0xF0 : Nat) : Int) - ((m.toNat &&& 0xF0 : Nat) : Int) + al'
     let t' := if t < 0 then t - 0x60 else t
     (q.r.toNat : Int) = t' % 256 ∧ q.c = bin.c ∧ q.v = bin.v ∧ q.z = bin.z ∧ q.n = bin.n) ∧
    (let q := sbcDec a m c .cmos
     let t := (a.toNat : Int) - m.toNat + bit c - 1
     let t' := if t < 0 then t - 0x60 else t
     let t'' := if al < 0 then t' - 0x06 else t'
     (q.r.toNat : Int) = t'' % 256 ∧ q.c = bin.c ∧ q.v = bin.v ∧
     q.z = decide (t'' % 256 = 0) ∧ q.n = decide (128 ≤ t'' % 256))

/-- For bytes whose digits are 0 to 9: decimal addition gives the packed code of the sum modulo 100 and C exactly when the sum exceeds 99; decimal subtraction gives the packed code of the difference modulo 100 and C exactly when it is not negative; under both variants. (42_arithmetic_logic.md section 1 (R182, R183, the sentences on valid BCD operands).) -/
def Obligations.DecimalArithmeticIsTrueOnValidDigits : Prop :=
  ∀ (a m : Byte) (c : Bool) (v : Variant), isBcd a → isBcd m →
    (adcDec a m c v).r = bcd ((dec a + dec m + bit c) % 100) ∧
    (adcDec a m c v).c = decide (99 < dec a + dec m + bit c) ∧
    (sbcDec a m c v).r = bcd (((dec a : Int) - dec m - (1 - bit c)) % 100).toNat ∧
    (sbcDec a m c v).c = decide (0 ≤ (dec a : Int) - dec m - (1 - bit c))

/-- ADC and SBC in each of their encodings: exec answers a next state in which AC, C, V, Z and N are those of adc_bin or sbc_bin when D is 0 and of adc_dec or sbc_dec of the variant when D is 1, applied to AC, the operand and C; D, I, B, U, the other registers and memory are unchanged, PC is at the next instruction. The cost in decimal mode is one cycle more under CMOS than in binary mode. (R185, R186.) -/
def Obligations.AddAndSubtractInstructions : Prop :=
  AccCoded .adc 0x69 0x65 0x75 0x6D 0x7D 0x79 0x61 0x71 0x72 ∧
  AccCoded .sbc 0xE9 0xE5 0xF5 0xED 0xFD 0xF9 0xE1 0xF1 0xF2 ∧
  (∀ (src : Src AccMem) (s : State),
    let m := operandOf s (.adc src) (src.resolve AccMem.addr)
    let q := if s.sr.d then adcDec s.ac m s.sr.c s.variant else adcBin s.ac m s.sr.c
    Effect (.adc src) s
      { regs s with pc := nextPc s (.adc src), ac := q.r, sr := { s.sr with c := q.c, v := q.v, z := q.z, n := q.n } } s.read) ∧
  (∀ (src : Src AccMem) (s : State),
    let m := operandOf s (.sbc src) (src.resolve AccMem.addr)
    let q := if s.sr.d then sbcDec s.ac m s.sr.c s.variant else sbcBin s.ac m s.sr.c
    Effect (.sbc src) s
      { regs s with pc := nextPc s (.sbc src), ac := q.r, sr := { s.sr with c := q.c, v := q.v, z := q.z, n := q.n } } s.read) ∧
  (∀ (src : Src AccMem) (s : State) (k : Bool),
    (State.cost { s with sr := { s.sr with d := true } } (.adc src) k =
      State.cost { s with sr := { s.sr with d := false } } (.adc src) k + if s.variant = .cmos then 1 else 0) ∧
    (State.cost { s with sr := { s.sr with d := true } } (.sbc src) k =
      State.cost { s with sr := { s.sr with d := false } } (.sbc src) k + if s.variant = .cmos then 1 else 0))

/-- AND, ORA and EOR in each of their encodings: exec answers a next state in which AC is the bitwise and, or, exclusive or of AC and the operand, Z and N are from it, C and V and every other flag, register and byte of memory are unchanged, PC is at the next instruction. (R187, R188, R189.) -/
def Obligations.LogicInstructions : Prop :=
  AccCoded .and 0x29 0x25 0x35 0x2D 0x3D 0x39 0x21 0x31 0x32 ∧
  AccCoded .ora 0x09 0x05 0x15 0x0D 0x1D 0x19 0x01 0x11 0x12 ∧
  AccCoded .eor 0x49 0x45 0x55 0x4D 0x5D 0x59 0x41 0x51 0x52 ∧
  ∀ (src : Src AccMem) (s : State),
    (let r := s.ac &&& operandOf s (.and src) (src.resolve AccMem.addr)
     Effect (.and src) s { regs s with pc := nextPc s (.and src), ac := r, sr := zn s.sr r } s.read) ∧
    (let r := s.ac ||| operandOf s (.ora src) (src.resolve AccMem.addr)
     Effect (.ora src) s { regs s with pc := nextPc s (.ora src), ac := r, sr := zn s.sr r } s.read) ∧
    (let r := s.ac ^^^ operandOf s (.eor src) (src.resolve AccMem.addr)
     Effect (.eor src) s { regs s with pc := nextPc s (.eor src), ac := r, sr := zn s.sr r } s.read)

/-- CMP, CPX and CPY in each of their encodings: exec answers a next state in which C is 1 exactly when the register is at least the operand as unsigned numbers, Z when they are equal, N is bit 7 of the difference modulo 256; V, D and the other flags, every register but PC and memory are unchanged, whatever D is. (R184, R190, R191, R192.) -/
def Obligations.CompareInstructions : Prop :=
  AccCoded .cmp 0xC9 0xC5 0xD5 0xCD 0xDD 0xD9 0xC1 0xD1 0xD2 ∧
  (∀ b, Coded true (.cpx (.imm b)) 0xE0 [b] ∧ Coded true (.cpy (.imm b)) 0xC0 [b]) ∧
  ZpAbsCoded true (fun m => .cpx (.mem m)) 0xE4 0xEC ∧ ZpAbsCoded true (fun m => .cpy (.mem m)) 0xC4 0xCC ∧
  (let flags := fun (f : Flags) (reg m : Byte) =>
    { f with
      c := decide (m.toNat ≤ reg.toNat), z := decide (reg = m)
      n := decide (128 ≤ ((reg.toNat : Int) - m.toNat) % 256) }
   (∀ (src : Src AccMem) (s : State),
    Effect (.cmp src) s
      { regs s with
        pc := nextPc s (.cmp src), sr := flags s.sr s.ac (operandOf s (.cmp src) (src.resolve AccMem.addr)) } s.read) ∧
   (∀ (src : Src ZpAbs) (s : State),
    Effect (.cpx src) s
      { regs s with
        pc := nextPc s (.cpx src), sr := flags s.sr s.x (operandOf s (.cpx src) (src.resolve ZpAbs.addr)) } s.read) ∧
   (∀ (src : Src ZpAbs) (s : State),
    Effect (.cpy src) s
      { regs s with
        pc := nextPc s (.cpy src), sr := flags s.sr s.y (operandOf s (.cpy src) (src.resolve ZpAbs.addr)) } s.read))

/-- BIT in each of its encodings: exec answers a next state in which Z is 1 exactly when AC and the operand have no bit in common; in every mode but immediate N and V are bits 7 and 6 of the operand, in immediate mode they are unchanged; AC, the other flags and registers and memory are unchanged, PC is at the next instruction. (R193.) -/
def Obligations.BitTestInstruction : Prop :=
  (∀ b, Coded false (.bit (.imm b)) 0x89 [b]) ∧ XMemCoded true false (fun m => .bit (.mem m)) 0x24 0x34 0x2C 0x3C ∧
  (∀ (b : Byte) (s : State),
    Effect (.bit (.imm b)) s
      { regs s with pc := s.pc + 2, sr := { s.sr with z := decide (s.ac &&& b = 0) } } s.read) ∧
  (∀ (x : XMem) (s : State),
    let m := s.read (eaOf s (.bit (.mem x)) x.addr)
    Effect (.bit (.mem x)) s
      { regs s with
        pc := nextPc s (.bit (.mem x))
        sr := { s.sr with
          z := decide (s.ac &&& m = 0), n := m.getLsbD 7, v := m.getLsbD 6 } } s.read)

/-- TRB and TSB in each of their encodings: exec answers a next state in which Z is 1 exactly when AC and the old byte at EA have no bit in common, and the byte at EA has the bits of AC cleared or set; N, V, C and the other flags, every register but PC and every other byte of memory are unchanged. (R194, R195.) -/
def Obligations.TestAndSetInstructions : Prop :=
  ZpAbsCoded false .trb 0x14 0x1C ∧ ZpAbsCoded false .tsb 0x04 0x0C ∧
  ∀ (x : ZpAbs) (s : State),
    (let ea := eaOf s (.trb x) x.addr
     let m := s.read ea
     Effect (.trb x) s
       { regs s with pc := nextPc s (.trb x), sr := { s.sr with z := decide (s.ac &&& m = 0) } } (poke s.read ea (m &&& ~~~s.ac))) ∧
    (let ea := eaOf s (.tsb x) x.addr
     let m := s.read ea
     Effect (.tsb x) s
       { regs s with pc := nextPc s (.tsb x), sr := { s.sr with z := decide (s.ac &&& m = 0) } } (poke s.read ea (m ||| s.ac)))

/-- INC and DEC in each of their encodings: exec answers a next state in which AC, in the accumulator form, or the byte at EA has been increased or decreased by 1 modulo 256 and Z and N are from the result; C, V and the other flags, the other registers and every other byte of memory are unchanged, PC is at the next instruction. (R211, R212.) -/
def Obligations.IncrementAndDecrementInstructions : Prop :=
  RmwCoded false .inc 0x1A 0xE6 0xF6 0xEE 0xFE ∧ RmwCoded false .dec 0x3A 0xC6 0xD6 0xCE 0xDE ∧
  (∀ s : State,
    (let r := BitVec.ofNat 8 (s.ac.toNat + 1)
     Effect (.inc .acc) s { regs s with pc := s.pc + 1, ac := r, sr := zn s.sr r } s.read) ∧
    (let r := BitVec.ofInt 8 (s.ac.toNat - 1)
     Effect (.dec .acc) s { regs s with pc := s.pc + 1, ac := r, sr := zn s.sr r } s.read)) ∧
  ∀ (x : XMem) (s : State),
    (let ea := eaOf s (.inc (.mem x)) x.addr
     let r := BitVec.ofNat 8 ((s.read ea).toNat + 1)
     Effect (.inc (.mem x)) s { regs s with pc := nextPc s (.inc (.mem x)), sr := zn s.sr r } (poke s.read ea r)) ∧
    (let ea := eaOf s (.dec (.mem x)) x.addr
     let r := BitVec.ofInt 8 ((s.read ea).toNat - 1)
     Effect (.dec (.mem x)) s { regs s with pc := nextPc s (.dec (.mem x)), sr := zn s.sr r } (poke s.read ea r))

/-- INX, INY, DEX and DEY: exec answers a next state in which X or Y has been increased or decreased by 1 modulo 256, Z and N are from it, C, V and the other flags, the other registers and memory are unchanged, PC is larger by 1. (R213, R214, R215, R216.) -/
def Obligations.IndexIncrementAndDecrement : Prop :=
  Coded true .inx 0xE8 [] ∧ Coded true .iny 0xC8 [] ∧ Coded true .dex 0xCA [] ∧ Coded true .dey 0x88 [] ∧
  ∀ s : State,
    (let r := BitVec.ofNat 8 (s.x.toNat + 1)
     Effect .inx s { regs s with pc := s.pc + 1, x := r, sr := zn s.sr r } s.read) ∧
    (let r := BitVec.ofNat 8 (s.y.toNat + 1)
     Effect .iny s { regs s with pc := s.pc + 1, y := r, sr := zn s.sr r } s.read) ∧
    (let r := BitVec.ofInt 8 (s.x.toNat - 1)
     Effect .dex s { regs s with pc := s.pc + 1, x := r, sr := zn s.sr r } s.read) ∧
    (let r := BitVec.ofInt 8 (s.y.toNat - 1)
     Effect .dey s { regs s with pc := s.pc + 1, y := r, sr := zn s.sr r } s.read)

/-- asl doubles the byte modulo 256 and puts out bit 7; lsr halves it and puts out bit 0; rol doubles it, adds the carry in and puts out bit 7; ror halves it, adds the carry in as bit 7 and puts out bit 0. (R210.) -/
def Obligations.ShiftFunctionsMoveOneBit : Prop :=
  ∀ (v : Byte) (cin : Bool),
    (aslByte v).r.toNat = 2 * v.toNat % 256 ∧ (aslByte v).out = decide (128 ≤ v.toNat) ∧
    (lsrByte v).r.toNat = v.toNat / 2 ∧ (lsrByte v).out = decide (v.toNat % 2 = 1) ∧
    (rolByte v cin).r.toNat = 2 * v.toNat % 256 + bit cin ∧ (rolByte v cin).out = decide (128 ≤ v.toNat) ∧
    (rorByte v cin).r.toNat = v.toNat / 2 + 128 * bit cin ∧ (rorByte v cin).out = decide (v.toNat % 2 = 1)

/-- ASL, LSR, ROL and ROR in each of their encodings: exec answers a next state in which AC, in the accumulator form, or the byte at EA is the shifted byte (the old C shifted in for the rotates), C is the bit shifted out, Z and N are from the result; V and the other flags, the other registers and every other byte of memory are unchanged, PC is at the next instruction. The memory form of these and of INC and DEC reads and writes one and the same EA and leaves AC alone; abs,X pays no page-cross cycle under NMOS. (R217, R218, R219, R220, R221.) -/
def Obligations.ShiftInstructions : Prop :=
  RmwCoded true .asl 0x0A 0x06 0x16 0x0E 0x1E ∧ RmwCoded true .lsr 0x4A 0x46 0x56 0x4E 0x5E ∧
  RmwCoded true .rol 0x2A 0x26 0x36 0x2E 0x3E ∧ RmwCoded true .ror 0x6A 0x66 0x76 0x6E 0x7E ∧
  (let onAcc := fun (i : Instr) (s : State) (q : ShiftResult) =>
     Effect i s { regs s with pc := s.pc + 1, ac := q.r, sr := { zn s.sr q.r with c := q.out } } s.read
   ∀ s : State,
     onAcc (.asl .acc) s (aslByte s.ac) ∧ onAcc (.lsr .acc) s (lsrByte s.ac) ∧
     onAcc (.rol .acc) s (rolByte s.ac s.sr.c) ∧ onAcc (.ror .acc) s (rorByte s.ac s.sr.c)) ∧
  (let onMem := fun (i : Instr) (x : XMem) (s : State) (f : Byte → ShiftResult) =>
     let ea := eaOf s i x.addr
     let q := f (s.read ea)
     Effect i s { regs s with pc := nextPc s i, sr := { zn s.sr q.r with c := q.out } } (poke s.read ea q.r)
   ∀ (x : XMem) (s : State),
     onMem (.asl (.mem x)) x s aslByte ∧ onMem (.lsr (.mem x)) x s lsrByte ∧
     onMem (.rol (.mem x)) x s (fun v => rolByte v s.sr.c) ∧ onMem (.ror (.mem x)) x s (fun v => rorByte v s.sr.c)) ∧
  (∀ x : XMem,
    (Instr.asl (.mem x)).pagePenalty .nmos = false ∧ (Instr.lsr (.mem x)).pagePenalty .nmos = false ∧
    (Instr.rol (.mem x)).pagePenalty .nmos = false ∧ (Instr.ror (.mem x)).pagePenalty .nmos = false ∧
    (Instr.inc (.mem x)).pagePenalty .nmos = false ∧ (Instr.dec (.mem x)).pagePenalty .nmos = false) ∧
  (∀ (x : XMem) (s : State) (a : Addr),
    let incEa := eaOf s (.inc (.mem x)) x.addr
    let decEa := eaOf s (.dec (.mem x)) x.addr
    ∃ t u, exec (.inc (.mem x)) s = .next t ∧ exec (.dec (.mem x)) s = .next u ∧ t.ac = s.ac ∧ u.ac = s.ac ∧
      (a ≠ incEa → t.read a = s.read a) ∧ (a ≠ decEa → u.read a = s.read a))

/-- BPL BMI BVC BVS BCC BCS BNE BEQ test N, V, C or Z for 0 or 1 and BRA is always taken: exec answers a next state in which PC is the next instruction's address plus the displacement read as signed, modulo 65536, when taken, and the next instruction's address otherwise; no flag, no other register and no byte of memory changes; the cost is 2 not taken, 3 taken, 4 taken into another page. (R240, R241, R242, R243, R244, R245, R246, R247, R248, R249.) -/
def Obligations.BranchInstructions : Prop :=
  (∀ d, Coded true (.bpl d) 0x10 [d] ∧ Coded true (.bmi d) 0x30 [d] ∧ Coded true (.bvc d) 0x50 [d] ∧
    Coded true (.bvs d) 0x70 [d] ∧ Coded true (.bcc d) 0x90 [d] ∧ Coded true (.bcs d) 0xB0 [d] ∧
    Coded true (.bne d) 0xD0 [d] ∧ Coded true (.beq d) 0xF0 [d] ∧ Coded false (.bra d) 0x80 [d]) ∧
  ∀ (d : Byte) (s : State),
    BranchEffect (.bpl d) d (decide (s.sr.n = false)) s ∧ BranchEffect (.bmi d) d (decide (s.sr.n = true)) s ∧
    BranchEffect (.bvc d) d (decide (s.sr.v = false)) s ∧ BranchEffect (.bvs d) d (decide (s.sr.v = true)) s ∧
    BranchEffect (.bcc d) d (decide (s.sr.c = false)) s ∧ BranchEffect (.bcs d) d (decide (s.sr.c = true)) s ∧
    BranchEffect (.bne d) d (decide (s.sr.z = false)) s ∧ BranchEffect (.beq d) d (decide (s.sr.z = true)) s ∧
    BranchEffect (.bra d) d true s

/-- JMP in each of its encodings: exec answers a next state in which PC is EA (the operand word, or the word at the pointer as the modes IND and IAX compute it); no flag, no other register and no byte of memory changes. (R250.) -/
def Obligations.JumpInstruction : Prop :=
  (∀ l h : Byte,
    Coded true (.jmp (.abs (cat h l))) 0x4C [l, h] ∧ Coded true (.jmp (.ind (cat h l))) 0x6C [l, h] ∧
    Coded false (.jmp (.iax (cat h l))) 0x7C [l, h]) ∧
  (∀ (w : Addr) (s : State), Effect (.jmp (.abs w)) s { regs s with pc := w } s.read) ∧
  (∀ (t : JmpMem) (s : State), Effect (.jmp t) s { regs s with pc := eaOf s (.jmp t) t.addr } s.read) ∧
  (∀ (t : JmpMem) (s : State), eaOf s (.jmp t) t.addr = s.effectiveAddress t.addr)

/-- JSR: exec answers a next state in which PC is the operand word, the high byte of the JSR's address plus 2 is at 0x0100 + SP and the low byte at 0x0100 + (SP - 1), SP is smaller by 2 modulo 256; every other byte of memory, register and flag is unchanged. (R251.) -/
def Obligations.CallPushesTheAddressOfItsLastByte : Prop :=
  (∀ l h : Byte, Coded true (.jsr (cat h l)) 0x20 [l, h]) ∧
  ∀ (w : Addr) (s : State),
    let ret := (s.pc.toNat + 2) % 65536
    Effect (.jsr w) s { regs s with pc := w, sp := s.sp - 2 }
      (poke (poke s.read (page1 s.sp) (BitVec.ofNat 8 (ret / 256))) (page1 (s.sp - 1)) (BitVec.ofNat 8 (ret % 256)))

/-- RTS: PC is the word whose low byte is at 0x0100 + (SP + 1) and high byte at 0x0100 + (SP + 2), plus 1 modulo 65536, SP is larger by 2 modulo 256. RTI: all eight flags are the bits of the byte at 0x0100 + (SP + 1), PC is the word at the two following stack bytes, SP is larger by 3 modulo 256. Both answer a next state and leave every other register, flag and byte of memory unchanged. (R252, R253.) -/
def Obligations.ReturnInstructions : Prop :=
  Coded true .rts 0x60 [] ∧ Coded true .rti 0x40 [] ∧
  ∀ s : State,
    let b1 := s.read (page1 (s.sp + 1))
    let b2 := s.read (page1 (s.sp + 2))
    let b3 := s.read (page1 (s.sp + 3))
    Effect .rts s { regs s with pc := BitVec.ofNat 16 (256 * b2.toNat + b1.toNat + 1), sp := s.sp + 2 } s.read ∧
    Effect .rti s
      { regs s with
        pc := BitVec.ofNat 16 (256 * b3.toNat + b2.toNat), sp := s.sp + 3
        sr := { n := b1.getLsbD 7, v := b1.getLsbD 6, u := b1.getLsbD 5, b := b1.getLsbD 4
                d := b1.getLsbD 3, i := b1.getLsbD 2, z := b1.getLsbD 1, c := b1.getLsbD 0 } } s.read

/-- From every state, executing JSR to any target and then RTS answers a state whose PC is the JSR's address plus 3 modulo 65536 and whose AC, X, Y, SP and flags are those before the JSR; every byte of memory outside the two stack bytes is unchanged. (44_branch_jump.md section 3 (R252, the document's test), 44_branch_jump.md section 4 (R254).) -/
def Obligations.ReturnUndoesCall : Prop :=
  ∀ (w : Addr) (s : State), ∃ t u, exec (.jsr w) s = .next t ∧ exec .rts t = .next u ∧
    regs u = { regs s with pc := s.pc + 3 } ∧
    ∀ a, a ≠ page1 s.sp → a ≠ page1 (s.sp - 1) → u.read a = s.read a

/-- PHA, PHP, PHX and PHY: exec answers a next state in which the byte at 0x0100 + SP (the SP before) is AC, the packed flags with bits 5 and 4 at 1, X or Y, SP is smaller by 1 modulo 256, PC larger by 1; no flag, no other register and no other byte of memory changes. (R270, R271, R274, R275.) -/
def Obligations.PushInstructions : Prop :=
  Coded true .pha 0x48 [] ∧ Coded true .php 0x08 [] ∧ Coded false .phx 0xDA [] ∧ Coded false .phy 0x5A [] ∧
  ∀ s : State,
    let after : Regs := { regs s with pc := s.pc + 1, sp := s.sp - 1 }
    let status : Nat := 0x80 * bit s.sr.n + 0x40 * bit s.sr.v + 0x30 + 0x08 * bit s.sr.d + 0x04 * bit s.sr.i +
      0x02 * bit s.sr.z + bit s.sr.c
    Effect .pha s after (poke s.read (page1 s.sp) s.ac) ∧
    Effect .php s after (poke s.read (page1 s.sp) (BitVec.ofNat 8 status)) ∧
    Effect .phx s after (poke s.read (page1 s.sp) s.x) ∧
    Effect .phy s after (poke s.read (page1 s.sp) s.y)

/-- PLA, PLX, PLY and PLP: exec answers a next state in which AC, X or Y is the byte at 0x0100 + (SP + 1 modulo 256) with Z and N from it, or, for PLP, the eight flags are that byte's bits; SP is larger by 1 modulo 256, PC by 1; no other flag or register and no byte of memory changes. (R272, R273, R276, R277.) -/
def Obligations.PullInstructions : Prop :=
  Coded true .pla 0x68 [] ∧ Coded true .plp 0x28 [] ∧ Coded false .plx 0xFA [] ∧ Coded false .ply 0x7A [] ∧
  ∀ s : State,
    let b := s.read (page1 (s.sp + 1))
    let after : Regs := { regs s with pc := s.pc + 1, sp := s.sp + 1 }
    Effect .pla s { after with ac := b, sr := zn s.sr b } s.read ∧
    Effect .plx s { after with x := b, sr := zn s.sr b } s.read ∧
    Effect .ply s { after with y := b, sr := zn s.sr b } s.read ∧
    Effect .plp s
      { after with
        sr := { n := b.getLsbD 7, v := b.getLsbD 6, u := b.getLsbD 5, b := b.getLsbD 4
                d := b.getLsbD 3, i := b.getLsbD 2, z := b.getLsbD 1, c := b.getLsbD 0 } } s.read

/-- Each flag instruction: exec answers a next state in which the one named flag is cleared or set, every other flag, every register but PC and every byte of memory is unchanged, and PC is larger by 1. (R278, R279, R280, R281, R282, R283, R284.) -/
def Obligations.FlagInstructions : Prop :=
  Coded true .clc 0x18 [] ∧ Coded true .sec 0x38 [] ∧ Coded true .cli 0x58 [] ∧ Coded true .sei 0x78 [] ∧
  Coded true .cld 0xD8 [] ∧ Coded true .sed 0xF8 [] ∧ Coded true .clv 0xB8 [] ∧
  ∀ s : State,
    Effect .clc s { regs s with pc := s.pc + 1, sr := { s.sr with c := false } } s.read ∧
    Effect .sec s { regs s with pc := s.pc + 1, sr := { s.sr with c := true } } s.read ∧
    Effect .cli s { regs s with pc := s.pc + 1, sr := { s.sr with i := false } } s.read ∧
    Effect .sei s { regs s with pc := s.pc + 1, sr := { s.sr with i := true } } s.read ∧
    Effect .cld s { regs s with pc := s.pc + 1, sr := { s.sr with d := false } } s.read ∧
    Effect .sed s { regs s with pc := s.pc + 1, sr := { s.sr with d := true } } s.read ∧
    Effect .clv s { regs s with pc := s.pc + 1, sr := { s.sr with v := false } } s.read

/-- BRK: exec answers a next state in which the high and low byte of the BRK's address plus 2 and the packed flags with bits 5 and 4 at 1 are at 0x0100 + SP, SP - 1 and SP - 2, SP is smaller by 3 modulo 256, I is 1, D is 0 under CMOS and as before under NMOS, PC is the word at 0xFFFE and 0xFFFF; no other flag, no data register and no other byte of memory changes. It costs 7 cycles. (R290, R316.) -/
def Obligations.BreakEntersTheHandler : Prop :=
  Coded true .brk 0x00 [] ∧
  ∀ s : State,
    let ret := (s.pc.toNat + 2) % 65536
    let status : Nat := 0x80 * bit s.sr.n + 0x40 * bit s.sr.v + 0x30 + 0x08 * bit s.sr.d + 0x04 * bit s.sr.i +
      0x02 * bit s.sr.z + bit s.sr.c
    Effect .brk s
      { regs s with
        pc := BitVec.ofNat 16 (256 * (s.read 0xFFFF).toNat + (s.read 0xFFFE).toNat), sp := s.sp - 3
        sr := { s.sr with i := true, d := if s.variant = .cmos then false else s.sr.d } }
      (poke
        (poke (poke s.read (page1 s.sp) (BitVec.ofNat 8 (ret / 256))) (page1 (s.sp - 1)) (BitVec.ofNat 8 (ret % 256)))
        (page1 (s.sp - 2)) (BitVec.ofNat 8 status)) ∧
    ∃ t, exec .brk s = .next t ∧ t.cyc = s.cyc + 7

/-- From every state, executing BRK and then RTI answers a state whose PC is the BRK's address plus 2 modulo 65536, whose AC, X, Y, SP and flags N V D I Z C are those before the BRK and whose U and B are 1; every byte of memory outside the three stack bytes is unchanged. (60_exceptions.md section 4 (R317).) -/
def Obligations.ReturnFromInterruptUndoesBreak : Prop :=
  ∀ s : State, ∃ t u, exec .brk s = .next t ∧ exec .rti t = .next u ∧
    regs u = { regs s with pc := s.pc + 2, sr := { s.sr with u := true, b := true } } ∧
    ∀ a, a ≠ page1 s.sp → a ≠ page1 (s.sp - 1) → a ≠ page1 (s.sp - 2) → u.read a = s.read a

/-- NOP (byte EA): exec answers a next state with PC larger by 1 and CYC by 2. INVALID (any byte outside the valid set of the variant, no operand byte consumed): PC larger by 1, CYC by 1, and the result record says 1 cycle, invalid, opcode INVALID, mode IMP. No flag, no other register and no byte of memory changes. (R291, R292.) -/
def Obligations.NopAndInvalidOnlyAdvance : Prop :=
  Coded true .nop 0xEA [] ∧
  (∀ (v : Variant) (b b1 b2 : Byte), validCode v b = false → decodeInstr v b b1 b2 = .invalid b) ∧
  (∀ b : Byte, encode (.invalid b) = [b]) ∧
  (∀ s : State, Effect .nop s { regs s with pc := s.pc + 1 } s.read ∧
    ∃ t, exec .nop s = .next t ∧ t.cyc = s.cyc + 2) ∧
  (∀ (b : Byte) (s : State), Effect (.invalid b) s { regs s with pc := s.pc + 1 } s.read ∧
    ∃ t, exec (.invalid b) s = .next t ∧ t.cyc = s.cyc + 1 ∧
      t.out = some { cycles := 1, invalid := true, opcode := .invalid, mode := .imp })
end

