-- ==== Sys2Proof/Laws/Bits.lean ====
section
/-! SUPPORT. Bit fields and byte order, as arithmetic. -/

namespace Sys2Proof

theorem toNat_cat (h l : Byte) : (cat h l).toNat = h.toNat * 256 + l.toNat := by
  have hl := l.isLt
  have e : (cat h l).toNat = h.toNat <<< 8 ||| l.toNat := BitVec.toNat_append h l
  rw [e, Nat.shiftLeft_eq, Nat.mul_comm, ← Nat.two_pow_add_eq_or_of_lt hl]

theorem toNat_lo (w : Addr) : (lo w).toNat = w.toNat % 256 := by
  simp [lo]

theorem toNat_hi (w : Addr) : (hi w).toNat = w.toNat / 256 := by
  have := w.isLt
  simp [hi, Nat.shiftRight_eq_div_pow]
  omega

theorem toNat_zext16 (b : Byte) : (zext16 b).toNat = b.toNat := by
  have := b.isLt
  simp [zext16]
  omega

@[simp] theorem cat_hi_lo (w : Addr) : cat (hi w) (lo w) = w := by
  apply BitVec.eq_of_toNat_eq
  rw [toNat_cat, toNat_hi, toNat_lo]
  omega

@[simp] theorem lo_cat (h l : Byte) : lo (cat h l) = l := by
  apply BitVec.eq_of_toNat_eq
  have := l.isLt
  rw [toNat_lo, toNat_cat]
  omega

@[simp] theorem hi_cat (h l : Byte) : hi (cat h l) = h := by
  apply BitVec.eq_of_toNat_eq
  have := l.isLt
  rw [toNat_hi, toNat_cat]
  omega

end Sys2Proof
end

