-- ==== Sys2Proof/Laws/Memory.lean ====
section
/-! SUPPORT. The laws of memory: a read after a write, and the canonical form kept by every memory operation. -/

namespace Sys2Proof.Machine

theorem Memory.read_erase_self (m : Memory) (a : Nat) : Memory.read (Memory.erase m a) a = 0 := by
  induction m with
  | nil => rfl
  | cons cell rest ih =>
    obtain ⟨k, v⟩ := cell
    by_cases h : k = a
    · simpa [Memory.erase, h] using ih
    · simpa [Memory.erase, Memory.read, h] using ih

theorem Memory.read_erase_other (m : Memory) {a b : Nat} (hab : b ≠ a) :
    Memory.read (Memory.erase m a) b = Memory.read m b := by
  induction m with
  | nil => rfl
  | cons cell rest ih =>
    obtain ⟨k, v⟩ := cell
    by_cases h : k = a
    · have hk : a ≠ b := fun e => hab e.symm
      simpa [Memory.erase, Memory.read, h, hk] using ih
    · by_cases hb : k = b
      · simp [Memory.erase, Memory.read, hb, hab]
      · simpa [Memory.erase, Memory.read, h, hb] using ih

theorem Memory.read_insert_other (m : Memory) {a b : Nat} (v : Byte) (hab : b ≠ a) :
    Memory.read (Memory.insert m a v) b = Memory.read m b := by
  have hk : a ≠ b := fun e => hab e.symm
  induction m with
  | nil => simp [Memory.insert, Memory.read, hk]
  | cons cell rest ih =>
    obtain ⟨k, w⟩ := cell
    unfold Memory.insert
    split
    · simp [Memory.read, hk]
    · simp [Memory.read, ih]

/-- No entry of a memory with the address erased is at that address. -/
theorem Memory.ne_of_mem_erase {m : Memory} {a : Nat} {cell : Host.Cell} (h : cell ∈ Memory.erase m a) : cell.1 ≠ a := by
  simpa using (List.mem_filter.mp h).2

theorem Memory.read_insert_self (m : Memory) (a : Nat) (v : Byte) (hm : ∀ cell ∈ m, cell.1 ≠ a) :
    Memory.read (Memory.insert m a v) a = v := by
  induction m with
  | nil => simp [Memory.insert, Memory.read]
  | cons cell rest ih =>
    obtain ⟨k, w⟩ := cell
    unfold Memory.insert
    split
    · simp [Memory.read]
    · have hk : k ≠ a := hm (k, w) (by simp)
      simpa [Memory.read, hk] using ih fun c hc => hm c (by simp [hc])

/-- A read of the address written gives the byte written, in every memory, canonical or not. -/
theorem Memory.read_write_self (m : Memory) (a : Nat) (v : Byte) : Memory.read (Memory.write m a v) a = v := by
  unfold Memory.write
  split
  · rename_i h
    rw [h, Memory.read_erase_self]
  · exact Memory.read_insert_self _ _ _ fun _ hc => Memory.ne_of_mem_erase hc

/-- A write leaves every other address alone. -/
theorem Memory.read_write_other (m : Memory) {a b : Nat} (v : Byte) (hab : b ≠ a) :
    Memory.read (Memory.write m a v) b = Memory.read m b := by
  unfold Memory.write
  split
  · exact Memory.read_erase_other m hab
  · rw [Memory.read_insert_other _ _ hab, Memory.read_erase_other m hab]

theorem Memory.above_erase {m : Memory} {k a : Nat} (h : Memory.above k m = true) :
    Memory.above k (Memory.erase m a) = true := by
  simp only [Memory.above, List.all_eq_true] at h ⊢
  exact fun c hc => h c (List.mem_filter.mp hc).1

theorem Memory.wf_erase {m : Memory} (a : Nat) (h : Memory.wf m = true) : Memory.wf (Memory.erase m a) = true := by
  induction m with
  | nil => rfl
  | cons cell rest ih =>
    obtain ⟨k, v⟩ := cell
    simp only [Memory.wf, Bool.and_eq_true] at h
    by_cases hk : k = a
    · simpa [Memory.erase, hk] using ih h.2
    · have e : Memory.erase ((k, v) :: rest) a = (k, v) :: Memory.erase rest a := by simp [Memory.erase, hk]
      rw [e]
      simp only [Memory.wf, Bool.and_eq_true]
      exact ⟨⟨h.1.1, Memory.above_erase h.1.2⟩, ih h.2⟩

theorem Memory.above_insert {m : Memory} {k a : Nat} {v : Byte} (h : Memory.above k m = true) (hk : k < a) :
    Memory.above k (Memory.insert m a v) = true := by
  induction m with
  | nil => simp [Memory.insert, Memory.above, hk]
  | cons cell rest ih =>
    obtain ⟨j, w⟩ := cell
    simp only [Memory.above, List.all_cons, Bool.and_eq_true] at h ih
    unfold Memory.insert
    split
    · simp only [Memory.above, List.all_cons, Bool.and_eq_true]
      exact ⟨by simpa using hk, h⟩
    · simp only [Memory.above, List.all_cons, Bool.and_eq_true]
      exact ⟨h.1, ih h.2⟩

theorem Memory.above_trans {m : Memory} {j k : Nat} (h : Memory.above k m = true) (hj : j < k) :
    Memory.above j m = true := by
  simp only [Memory.above, List.all_eq_true, decide_eq_true_eq] at h ⊢
  exact fun c hc => Nat.lt_trans hj (h c hc)

theorem Memory.wf_insert {m : Memory} {a : Nat} {v : Byte} (h : Memory.wf m = true) (ha : a < 65536) (hv : v ≠ 0)
    (hm : ∀ cell ∈ m, cell.1 ≠ a) : Memory.wf (Memory.insert m a v) = true := by
  induction m with
  | nil => simpa [Memory.insert, Memory.wf, Memory.above, ha] using hv
  | cons cell rest ih =>
    obtain ⟨k, w⟩ := cell
    have hw := h
    simp only [Memory.wf, Bool.and_eq_true] at h
    have hka : k ≠ a := hm (k, w) (by simp)
    unfold Memory.insert
    split
    · rename_i hlt
      have : Memory.above a ((k, w) :: rest) = true := by
        have := Memory.above_trans h.1.2 hlt
        simp only [Memory.above, List.all_cons, Bool.and_eq_true] at this ⊢
        exact ⟨by simpa using hlt, this⟩
      simp only [Memory.wf, Bool.and_eq_true] at hw ⊢
      exact ⟨⟨⟨by simpa using ha, by simpa using hv⟩, this⟩, hw⟩
    · rename_i hge
      simp only [Memory.wf, Bool.and_eq_true]
      refine ⟨⟨h.1.1, Memory.above_insert h.1.2 (by omega)⟩, ih h.2 fun c hc => hm c (by simp [hc])⟩

/-- Every write keeps the canonical form. -/
theorem Memory.wf_write {m : Memory} {a : Nat} {v : Byte} (h : Memory.wf m = true) (ha : a < 65536) :
    Memory.wf (Memory.write m a v) = true := by
  unfold Memory.write
  split
  · exact Memory.wf_erase a h
  · rename_i hv
    exact Memory.wf_insert (Memory.wf_erase a h) ha hv fun _ hc => Memory.ne_of_mem_erase hc

end Sys2Proof.Machine
end

