-- ==== Sys2Proof/Laws/State.lean ====
section
/-! SUPPORT. One lemma per field per update of the state, so that no later proof unfolds a record update. -/

namespace Sys2Proof.Machine

/-! ### `setPc` -/

@[simp] theorem State.variant_setPc (s : State) (v : Addr) : (s.setPc v).variant = s.variant := rfl
@[simp] theorem State.pc_setPc (s : State) (v : Addr) : (s.setPc v).pc = v := rfl
@[simp] theorem State.ac_setPc (s : State) (v : Addr) : (s.setPc v).ac = s.ac := rfl
@[simp] theorem State.x_setPc (s : State) (v : Addr) : (s.setPc v).x = s.x := rfl
@[simp] theorem State.y_setPc (s : State) (v : Addr) : (s.setPc v).y = s.y := rfl
@[simp] theorem State.sp_setPc (s : State) (v : Addr) : (s.setPc v).sp = s.sp := rfl
@[simp] theorem State.sr_setPc (s : State) (v : Addr) : (s.setPc v).sr = s.sr := rfl
@[simp] theorem State.cyc_setPc (s : State) (v : Addr) : (s.setPc v).cyc = s.cyc := rfl
@[simp] theorem State.mem_setPc (s : State) (v : Addr) : (s.setPc v).mem = s.mem := rfl
@[simp] theorem State.out_setPc (s : State) (v : Addr) : (s.setPc v).out = s.out := rfl
@[simp] theorem State.read_setPc (s : State) (v : Addr) (a : Addr) : (s.setPc v).read a = s.read a := rfl

/-! ### `setAc` -/

@[simp] theorem State.variant_setAc (s : State) (v : Byte) : (s.setAc v).variant = s.variant := rfl
@[simp] theorem State.pc_setAc (s : State) (v : Byte) : (s.setAc v).pc = s.pc := rfl
@[simp] theorem State.ac_setAc (s : State) (v : Byte) : (s.setAc v).ac = v := rfl
@[simp] theorem State.x_setAc (s : State) (v : Byte) : (s.setAc v).x = s.x := rfl
@[simp] theorem State.y_setAc (s : State) (v : Byte) : (s.setAc v).y = s.y := rfl
@[simp] theorem State.sp_setAc (s : State) (v : Byte) : (s.setAc v).sp = s.sp := rfl
@[simp] theorem State.sr_setAc (s : State) (v : Byte) : (s.setAc v).sr = s.sr := rfl
@[simp] theorem State.cyc_setAc (s : State) (v : Byte) : (s.setAc v).cyc = s.cyc := rfl
@[simp] theorem State.mem_setAc (s : State) (v : Byte) : (s.setAc v).mem = s.mem := rfl
@[simp] theorem State.out_setAc (s : State) (v : Byte) : (s.setAc v).out = s.out := rfl
@[simp] theorem State.read_setAc (s : State) (v : Byte) (a : Addr) : (s.setAc v).read a = s.read a := rfl

/-! ### `setX` -/

@[simp] theorem State.variant_setX (s : State) (v : Byte) : (s.setX v).variant = s.variant := rfl
@[simp] theorem State.pc_setX (s : State) (v : Byte) : (s.setX v).pc = s.pc := rfl
@[simp] theorem State.ac_setX (s : State) (v : Byte) : (s.setX v).ac = s.ac := rfl
@[simp] theorem State.x_setX (s : State) (v : Byte) : (s.setX v).x = v := rfl
@[simp] theorem State.y_setX (s : State) (v : Byte) : (s.setX v).y = s.y := rfl
@[simp] theorem State.sp_setX (s : State) (v : Byte) : (s.setX v).sp = s.sp := rfl
@[simp] theorem State.sr_setX (s : State) (v : Byte) : (s.setX v).sr = s.sr := rfl
@[simp] theorem State.cyc_setX (s : State) (v : Byte) : (s.setX v).cyc = s.cyc := rfl
@[simp] theorem State.mem_setX (s : State) (v : Byte) : (s.setX v).mem = s.mem := rfl
@[simp] theorem State.out_setX (s : State) (v : Byte) : (s.setX v).out = s.out := rfl
@[simp] theorem State.read_setX (s : State) (v : Byte) (a : Addr) : (s.setX v).read a = s.read a := rfl

/-! ### `setY` -/

@[simp] theorem State.variant_setY (s : State) (v : Byte) : (s.setY v).variant = s.variant := rfl
@[simp] theorem State.pc_setY (s : State) (v : Byte) : (s.setY v).pc = s.pc := rfl
@[simp] theorem State.ac_setY (s : State) (v : Byte) : (s.setY v).ac = s.ac := rfl
@[simp] theorem State.x_setY (s : State) (v : Byte) : (s.setY v).x = s.x := rfl
@[simp] theorem State.y_setY (s : State) (v : Byte) : (s.setY v).y = v := rfl
@[simp] theorem State.sp_setY (s : State) (v : Byte) : (s.setY v).sp = s.sp := rfl
@[simp] theorem State.sr_setY (s : State) (v : Byte) : (s.setY v).sr = s.sr := rfl
@[simp] theorem State.cyc_setY (s : State) (v : Byte) : (s.setY v).cyc = s.cyc := rfl
@[simp] theorem State.mem_setY (s : State) (v : Byte) : (s.setY v).mem = s.mem := rfl
@[simp] theorem State.out_setY (s : State) (v : Byte) : (s.setY v).out = s.out := rfl
@[simp] theorem State.read_setY (s : State) (v : Byte) (a : Addr) : (s.setY v).read a = s.read a := rfl

/-! ### `setSp` -/

@[simp] theorem State.variant_setSp (s : State) (v : Byte) : (s.setSp v).variant = s.variant := rfl
@[simp] theorem State.pc_setSp (s : State) (v : Byte) : (s.setSp v).pc = s.pc := rfl
@[simp] theorem State.ac_setSp (s : State) (v : Byte) : (s.setSp v).ac = s.ac := rfl
@[simp] theorem State.x_setSp (s : State) (v : Byte) : (s.setSp v).x = s.x := rfl
@[simp] theorem State.y_setSp (s : State) (v : Byte) : (s.setSp v).y = s.y := rfl
@[simp] theorem State.sp_setSp (s : State) (v : Byte) : (s.setSp v).sp = v := rfl
@[simp] theorem State.sr_setSp (s : State) (v : Byte) : (s.setSp v).sr = s.sr := rfl
@[simp] theorem State.cyc_setSp (s : State) (v : Byte) : (s.setSp v).cyc = s.cyc := rfl
@[simp] theorem State.mem_setSp (s : State) (v : Byte) : (s.setSp v).mem = s.mem := rfl
@[simp] theorem State.out_setSp (s : State) (v : Byte) : (s.setSp v).out = s.out := rfl
@[simp] theorem State.read_setSp (s : State) (v : Byte) (a : Addr) : (s.setSp v).read a = s.read a := rfl

/-! ### `setSr` -/

@[simp] theorem State.variant_setSr (s : State) (v : Flags) : (s.setSr v).variant = s.variant := rfl
@[simp] theorem State.pc_setSr (s : State) (v : Flags) : (s.setSr v).pc = s.pc := rfl
@[simp] theorem State.ac_setSr (s : State) (v : Flags) : (s.setSr v).ac = s.ac := rfl
@[simp] theorem State.x_setSr (s : State) (v : Flags) : (s.setSr v).x = s.x := rfl
@[simp] theorem State.y_setSr (s : State) (v : Flags) : (s.setSr v).y = s.y := rfl
@[simp] theorem State.sp_setSr (s : State) (v : Flags) : (s.setSr v).sp = s.sp := rfl
@[simp] theorem State.sr_setSr (s : State) (v : Flags) : (s.setSr v).sr = v := rfl
@[simp] theorem State.cyc_setSr (s : State) (v : Flags) : (s.setSr v).cyc = s.cyc := rfl
@[simp] theorem State.mem_setSr (s : State) (v : Flags) : (s.setSr v).mem = s.mem := rfl
@[simp] theorem State.out_setSr (s : State) (v : Flags) : (s.setSr v).out = s.out := rfl
@[simp] theorem State.read_setSr (s : State) (v : Flags) (a : Addr) : (s.setSr v).read a = s.read a := rfl

/-! ### `setCyc` -/

@[simp] theorem State.variant_setCyc (s : State) (v : Nat) : (s.setCyc v).variant = s.variant := rfl
@[simp] theorem State.pc_setCyc (s : State) (v : Nat) : (s.setCyc v).pc = s.pc := rfl
@[simp] theorem State.ac_setCyc (s : State) (v : Nat) : (s.setCyc v).ac = s.ac := rfl
@[simp] theorem State.x_setCyc (s : State) (v : Nat) : (s.setCyc v).x = s.x := rfl
@[simp] theorem State.y_setCyc (s : State) (v : Nat) : (s.setCyc v).y = s.y := rfl
@[simp] theorem State.sp_setCyc (s : State) (v : Nat) : (s.setCyc v).sp = s.sp := rfl
@[simp] theorem State.sr_setCyc (s : State) (v : Nat) : (s.setCyc v).sr = s.sr := rfl
@[simp] theorem State.cyc_setCyc (s : State) (v : Nat) : (s.setCyc v).cyc = v := rfl
@[simp] theorem State.mem_setCyc (s : State) (v : Nat) : (s.setCyc v).mem = s.mem := rfl
@[simp] theorem State.out_setCyc (s : State) (v : Nat) : (s.setCyc v).out = s.out := rfl
@[simp] theorem State.read_setCyc (s : State) (v : Nat) (a : Addr) : (s.setCyc v).read a = s.read a := rfl

/-! ### `setMem` -/

@[simp] theorem State.variant_setMem (s : State) (v : Memory) : (s.setMem v).variant = s.variant := rfl
@[simp] theorem State.pc_setMem (s : State) (v : Memory) : (s.setMem v).pc = s.pc := rfl
@[simp] theorem State.ac_setMem (s : State) (v : Memory) : (s.setMem v).ac = s.ac := rfl
@[simp] theorem State.x_setMem (s : State) (v : Memory) : (s.setMem v).x = s.x := rfl
@[simp] theorem State.y_setMem (s : State) (v : Memory) : (s.setMem v).y = s.y := rfl
@[simp] theorem State.sp_setMem (s : State) (v : Memory) : (s.setMem v).sp = s.sp := rfl
@[simp] theorem State.sr_setMem (s : State) (v : Memory) : (s.setMem v).sr = s.sr := rfl
@[simp] theorem State.cyc_setMem (s : State) (v : Memory) : (s.setMem v).cyc = s.cyc := rfl
@[simp] theorem State.mem_setMem (s : State) (v : Memory) : (s.setMem v).mem = v := rfl
@[simp] theorem State.out_setMem (s : State) (v : Memory) : (s.setMem v).out = s.out := rfl
@[simp] theorem State.read_setMem (s : State) (v : Memory) (a : Addr) : (s.setMem v).read a = Memory.read v a.toNat := rfl

/-! ### `setOut` -/

@[simp] theorem State.variant_setOut (s : State) (v : Option StepResult) : (s.setOut v).variant = s.variant := rfl
@[simp] theorem State.pc_setOut (s : State) (v : Option StepResult) : (s.setOut v).pc = s.pc := rfl
@[simp] theorem State.ac_setOut (s : State) (v : Option StepResult) : (s.setOut v).ac = s.ac := rfl
@[simp] theorem State.x_setOut (s : State) (v : Option StepResult) : (s.setOut v).x = s.x := rfl
@[simp] theorem State.y_setOut (s : State) (v : Option StepResult) : (s.setOut v).y = s.y := rfl
@[simp] theorem State.sp_setOut (s : State) (v : Option StepResult) : (s.setOut v).sp = s.sp := rfl
@[simp] theorem State.sr_setOut (s : State) (v : Option StepResult) : (s.setOut v).sr = s.sr := rfl
@[simp] theorem State.cyc_setOut (s : State) (v : Option StepResult) : (s.setOut v).cyc = s.cyc := rfl
@[simp] theorem State.mem_setOut (s : State) (v : Option StepResult) : (s.setOut v).mem = s.mem := rfl
@[simp] theorem State.out_setOut (s : State) (v : Option StepResult) : (s.setOut v).out = v := rfl
@[simp] theorem State.read_setOut (s : State) (v : Option StepResult) (a : Addr) : (s.setOut v).read a = s.read a := rfl

/-! ### `setReg`, `updateZeroNegative`, `putReg` -/

@[simp] theorem State.variant_setReg (s : State) (r : DataReg) (v : Byte) : (s.setReg r v).variant = s.variant := by
  cases r <;> rfl
@[simp] theorem State.pc_setReg (s : State) (r : DataReg) (v : Byte) : (s.setReg r v).pc = s.pc := by
  cases r <;> rfl
@[simp] theorem State.sp_setReg (s : State) (r : DataReg) (v : Byte) : (s.setReg r v).sp = s.sp := by
  cases r <;> rfl
@[simp] theorem State.sr_setReg (s : State) (r : DataReg) (v : Byte) : (s.setReg r v).sr = s.sr := by
  cases r <;> rfl
@[simp] theorem State.cyc_setReg (s : State) (r : DataReg) (v : Byte) : (s.setReg r v).cyc = s.cyc := by
  cases r <;> rfl
@[simp] theorem State.mem_setReg (s : State) (r : DataReg) (v : Byte) : (s.setReg r v).mem = s.mem := by
  cases r <;> rfl
@[simp] theorem State.out_setReg (s : State) (r : DataReg) (v : Byte) : (s.setReg r v).out = s.out := by
  cases r <;> rfl
@[simp] theorem State.read_setReg (s : State) (r : DataReg) (v : Byte) (a : Addr) : (s.setReg r v).read a = s.read a := by
  cases r <;> rfl
@[simp] theorem State.getReg_setReg (s : State) (r : DataReg) (v : Byte) : (s.setReg r v).getReg r = v := by
  cases r <;> rfl
theorem State.getReg_setReg_other (s : State) (r q : DataReg) (v : Byte) (h : q ≠ r) :
    (s.setReg r v).getReg q = s.getReg q := by
  cases r <;> cases q <;> first | rfl | exact absurd rfl h

@[simp] theorem State.variant_updateZeroNegative (s : State) (v : Byte) : (s.updateZeroNegative v).variant = s.variant := rfl
@[simp] theorem State.pc_updateZeroNegative (s : State) (v : Byte) : (s.updateZeroNegative v).pc = s.pc := rfl
@[simp] theorem State.ac_updateZeroNegative (s : State) (v : Byte) : (s.updateZeroNegative v).ac = s.ac := rfl
@[simp] theorem State.x_updateZeroNegative (s : State) (v : Byte) : (s.updateZeroNegative v).x = s.x := rfl
@[simp] theorem State.y_updateZeroNegative (s : State) (v : Byte) : (s.updateZeroNegative v).y = s.y := rfl
@[simp] theorem State.sp_updateZeroNegative (s : State) (v : Byte) : (s.updateZeroNegative v).sp = s.sp := rfl
@[simp] theorem State.sr_updateZeroNegative (s : State) (v : Byte) : (s.updateZeroNegative v).sr = s.sr.updateZeroNegative v := rfl
@[simp] theorem State.cyc_updateZeroNegative (s : State) (v : Byte) : (s.updateZeroNegative v).cyc = s.cyc := rfl
@[simp] theorem State.mem_updateZeroNegative (s : State) (v : Byte) : (s.updateZeroNegative v).mem = s.mem := rfl
@[simp] theorem State.out_updateZeroNegative (s : State) (v : Byte) : (s.updateZeroNegative v).out = s.out := rfl
@[simp] theorem State.read_updateZeroNegative (s : State) (v : Byte) (a : Addr) : (s.updateZeroNegative v).read a = s.read a := rfl

/-! ### `write`, `push`, `pulled`, `pastOperands` -/

@[simp] theorem State.variant_write (s : State) (a : Addr) (v : Byte) : (s.write a v).variant = s.variant := rfl
@[simp] theorem State.pc_write (s : State) (a : Addr) (v : Byte) : (s.write a v).pc = s.pc := rfl
@[simp] theorem State.ac_write (s : State) (a : Addr) (v : Byte) : (s.write a v).ac = s.ac := rfl
@[simp] theorem State.x_write (s : State) (a : Addr) (v : Byte) : (s.write a v).x = s.x := rfl
@[simp] theorem State.y_write (s : State) (a : Addr) (v : Byte) : (s.write a v).y = s.y := rfl
@[simp] theorem State.sp_write (s : State) (a : Addr) (v : Byte) : (s.write a v).sp = s.sp := rfl
@[simp] theorem State.sr_write (s : State) (a : Addr) (v : Byte) : (s.write a v).sr = s.sr := rfl
@[simp] theorem State.cyc_write (s : State) (a : Addr) (v : Byte) : (s.write a v).cyc = s.cyc := rfl
@[simp] theorem State.out_write (s : State) (a : Addr) (v : Byte) : (s.write a v).out = s.out := rfl
@[simp] theorem State.variant_push (s : State) (v : Byte) : (s.push v).variant = s.variant := rfl
@[simp] theorem State.pc_push (s : State) (v : Byte) : (s.push v).pc = s.pc := rfl
@[simp] theorem State.ac_push (s : State) (v : Byte) : (s.push v).ac = s.ac := rfl
@[simp] theorem State.x_push (s : State) (v : Byte) : (s.push v).x = s.x := rfl
@[simp] theorem State.y_push (s : State) (v : Byte) : (s.push v).y = s.y := rfl
@[simp] theorem State.sp_push (s : State) (v : Byte) : (s.push v).sp = s.sp - 1 := rfl
@[simp] theorem State.sr_push (s : State) (v : Byte) : (s.push v).sr = s.sr := rfl
@[simp] theorem State.cyc_push (s : State) (v : Byte) : (s.push v).cyc = s.cyc := rfl
@[simp] theorem State.out_push (s : State) (v : Byte) : (s.push v).out = s.out := rfl
@[simp] theorem State.variant_pulled (s : State) : s.pulled.variant = s.variant := rfl
@[simp] theorem State.pc_pulled (s : State) : s.pulled.pc = s.pc := rfl
@[simp] theorem State.ac_pulled (s : State) : s.pulled.ac = s.ac := rfl
@[simp] theorem State.x_pulled (s : State) : s.pulled.x = s.x := rfl
@[simp] theorem State.y_pulled (s : State) : s.pulled.y = s.y := rfl
@[simp] theorem State.sp_pulled (s : State) : s.pulled.sp = s.sp + 1 := rfl
@[simp] theorem State.sr_pulled (s : State) : s.pulled.sr = s.sr := rfl
@[simp] theorem State.cyc_pulled (s : State) : s.pulled.cyc = s.cyc := rfl
@[simp] theorem State.mem_pulled (s : State) : s.pulled.mem = s.mem := rfl
@[simp] theorem State.out_pulled (s : State) : s.pulled.out = s.out := rfl
@[simp] theorem State.read_pulled (s : State) (a : Addr) : s.pulled.read a = s.read a := rfl
@[simp] theorem State.variant_pastOperands (s : State) (i : Instr) : (s.pastOperands i).variant = s.variant := rfl
@[simp] theorem State.pc_pastOperands (s : State) (i : Instr) : (s.pastOperands i).pc = s.pc + BitVec.ofNat 16 i.length := rfl
@[simp] theorem State.ac_pastOperands (s : State) (i : Instr) : (s.pastOperands i).ac = s.ac := rfl
@[simp] theorem State.x_pastOperands (s : State) (i : Instr) : (s.pastOperands i).x = s.x := rfl
@[simp] theorem State.y_pastOperands (s : State) (i : Instr) : (s.pastOperands i).y = s.y := rfl
@[simp] theorem State.sp_pastOperands (s : State) (i : Instr) : (s.pastOperands i).sp = s.sp := rfl
@[simp] theorem State.sr_pastOperands (s : State) (i : Instr) : (s.pastOperands i).sr = s.sr := rfl
@[simp] theorem State.cyc_pastOperands (s : State) (i : Instr) : (s.pastOperands i).cyc = s.cyc := rfl
@[simp] theorem State.mem_pastOperands (s : State) (i : Instr) : (s.pastOperands i).mem = s.mem := rfl
@[simp] theorem State.out_pastOperands (s : State) (i : Instr) : (s.pastOperands i).out = s.out := rfl
@[simp] theorem State.read_pastOperands (s : State) (i : Instr) (a : Addr) : (s.pastOperands i).read a = s.read a := rfl

/-! ### `completed` -/

@[simp] theorem variant_completed (i : Instr) (s t : State) (k : Bool) : (completed i s k t).variant = t.variant := rfl
@[simp] theorem pc_completed (i : Instr) (s t : State) (k : Bool) : (completed i s k t).pc = t.pc := rfl
@[simp] theorem ac_completed (i : Instr) (s t : State) (k : Bool) : (completed i s k t).ac = t.ac := rfl
@[simp] theorem x_completed (i : Instr) (s t : State) (k : Bool) : (completed i s k t).x = t.x := rfl
@[simp] theorem y_completed (i : Instr) (s t : State) (k : Bool) : (completed i s k t).y = t.y := rfl
@[simp] theorem sp_completed (i : Instr) (s t : State) (k : Bool) : (completed i s k t).sp = t.sp := rfl
@[simp] theorem sr_completed (i : Instr) (s t : State) (k : Bool) : (completed i s k t).sr = t.sr := rfl
@[simp] theorem mem_completed (i : Instr) (s t : State) (k : Bool) : (completed i s k t).mem = t.mem := rfl
@[simp] theorem cyc_completed (i : Instr) (s t : State) (k : Bool) : (completed i s k t).cyc = t.cyc + s.cost i k := rfl
@[simp] theorem read_completed (i : Instr) (s t : State) (k : Bool) (a : Addr) : (completed i s k t).read a = t.read a := rfl

end Sys2Proof.Machine
end

