-- ==== Sys2Proof/Laws/Ops.lean ====
section
/-! SUPPORT. What each shared operation does, once: memory access, the stack, the software interrupt and its return, the resolver. -/

namespace Sys2Proof.Machine

/-! ### Memory access -/

@[simp] theorem State.read_write_self (s : State) (a : Addr) (v : Byte) : (s.write a v).read a = v :=
  Memory.read_write_self _ _ _

theorem State.read_write_other (s : State) {a b : Addr} (v : Byte) (h : b ≠ a) : (s.write a v).read b = s.read b :=
  Memory.read_write_other _ _ fun e => h (BitVec.eq_of_toNat_eq e)

/-- What every address reads as after a write. -/
theorem State.read_write (s : State) (a b : Addr) (v : Byte) :
    (s.write a v).read b = if b = a then v else s.read b := by
  split
  · rename_i h
    rw [h, State.read_write_self]
  · rename_i h
    exact State.read_write_other s v h

theorem State.wf_mem_write {s : State} (a : Addr) (v : Byte) (h : Memory.wf s.mem = true) :
    Memory.wf (s.write a v).mem = true :=
  Memory.wf_write h a.isLt

/-- Loading a program keeps the canonical form (R53). -/
theorem State.wf_mem_loadProgram {s : State} (base : Addr) (bytes : List Byte) (h : Memory.wf s.mem = true) :
    Memory.wf (s.loadProgram base bytes).mem = true := by
  induction bytes generalizing s base with
  | nil => exact h
  | cons b rest ih => exact ih (base + 1) (State.wf_mem_write base b h)

/-- Reset does not touch the memory (R340). -/
@[simp] theorem State.mem_applyReset (s : State) : s.applyReset.mem = s.mem := rfl

theorem State.wf_mem_reset : Memory.wf State.reset.mem = true := rfl

/-! ### Stack -/

theorem State.read_push (s : State) (v : Byte) (b : Addr) :
    (s.push v).read b = if b = stackAddr s.sp then v else s.read b :=
  State.read_write s _ b v

theorem State.wf_mem_push {s : State} (v : Byte) (h : Memory.wf s.mem = true) : Memory.wf (s.push v).mem = true :=
  State.wf_mem_write (s := s) _ v h

theorem toNat_stackAddr (p : Byte) : (stackAddr p).toNat = 0x100 + p.toNat := by
  rw [stackAddr, toNat_cat]
  simp

theorem stackAddr_inj {p q : Byte} : stackAddr p = stackAddr q ↔ p = q := by
  refine ⟨fun h => BitVec.eq_of_toNat_eq ?_, fun h => h ▸ rfl⟩
  have := congrArg BitVec.toNat h
  rw [toNat_stackAddr, toNat_stackAddr] at this
  omega

/-- A vector is never in the stack page. -/
theorem ne_stackAddr_of_page {a : Addr} (h : 0x200 ≤ a.toNat) (p : Byte) : a ≠ stackAddr p := by
  intro e
  have := congrArg BitVec.toNat e
  rw [toNat_stackAddr] at this
  have := p.isLt
  omega

theorem State.read_pushAddr (s : State) (w b : Addr) :
    (s.pushAddr w).read b =
      if b = stackAddr (s.sp - 1) then lo w else if b = stackAddr s.sp then hi w else s.read b := by
  simp only [State.pushAddr, State.read_push, State.sp_push]

theorem State.wf_mem_pushAddr {s : State} (w : Addr) (h : Memory.wf s.mem = true) :
    Memory.wf (s.pushAddr w).mem = true :=
  State.wf_mem_push _ (State.wf_mem_push _ h)

@[simp] theorem State.sp_pushAddr (s : State) (w : Addr) : (s.pushAddr w).sp = s.sp - 1 - 1 := rfl
@[simp] theorem State.sr_pushAddr (s : State) (w : Addr) : (s.pushAddr w).sr = s.sr := rfl
@[simp] theorem State.variant_pushAddr (s : State) (w : Addr) : (s.pushAddr w).variant = s.variant := rfl
@[simp] theorem State.pc_pushAddr (s : State) (w : Addr) : (s.pushAddr w).pc = s.pc := rfl
@[simp] theorem State.ac_pushAddr (s : State) (w : Addr) : (s.pushAddr w).ac = s.ac := rfl
@[simp] theorem State.x_pushAddr (s : State) (w : Addr) : (s.pushAddr w).x = s.x := rfl
@[simp] theorem State.y_pushAddr (s : State) (w : Addr) : (s.pushAddr w).y = s.y := rfl
@[simp] theorem State.cyc_pushAddr (s : State) (w : Addr) : (s.pushAddr w).cyc = s.cyc := rfl

/-- A pull returns the byte pushed and restores `SP` (R41). -/
theorem State.pullByte_push (s : State) (v : Byte) : (s.push v).pullByte = v := by
  have e : (s.push v).sp + 1 = s.sp := by rw [State.sp_push]; exact BitVec.sub_add_cancel _ _
  rw [State.pullByte, e, State.read_push, if_pos rfl]

/-! ### The software interrupt -/

/-- The three bytes entering the handler pushes; every other byte is as before (R316). -/
theorem State.read_enterHandler (s : State) (ret b : Addr) :
    (s.enterHandler ret).read b =
      if b = stackAddr (s.sp - 1 - 1) then s.sr.pushed
      else if b = stackAddr (s.sp - 1) then lo ret
      else if b = stackAddr s.sp then hi ret
      else s.read b := by
  have e : (s.enterHandler ret).read b = ((s.pushAddr ret).push s.sr.pushed).read b := by simp [State.enterHandler]
  rw [e, State.read_push, State.sp_pushAddr, State.read_pushAddr]

/-- The vector lies outside the stack page, so the pushes do not change it (R316). -/
theorem State.pc_enterHandler (s : State) (ret : Addr) : (s.enterHandler ret).pc = s.read16 brkVector := by
  have e : ∀ b : Addr, 0x200 ≤ b.toNat → ((s.pushAddr ret).push s.sr.pushed).read b = s.read b := by
    intro b hb
    rw [State.read_push, State.read_pushAddr, if_neg (ne_stackAddr_of_page hb _), if_neg (ne_stackAddr_of_page hb _),
      if_neg (ne_stackAddr_of_page hb _)]
  have h : (s.enterHandler ret).pc = ((s.pushAddr ret).push s.sr.pushed).read16 brkVector := by simp [State.enterHandler]
  rw [h, State.read16, State.read16, e _ (by decide), e _ (by decide)]

@[simp] theorem State.sr_enterHandler (s : State) (ret : Addr) :
    (s.enterHandler ret).sr = handlerFlags s.variant s.sr := by
  simp [State.enterHandler]
@[simp] theorem State.sp_enterHandler (s : State) (ret : Addr) : (s.enterHandler ret).sp = s.sp - 1 - 1 - 1 := by
  simp [State.enterHandler]
@[simp] theorem State.ac_enterHandler (s : State) (ret : Addr) : (s.enterHandler ret).ac = s.ac := by
  simp [State.enterHandler]
@[simp] theorem State.x_enterHandler (s : State) (ret : Addr) : (s.enterHandler ret).x = s.x := by
  simp [State.enterHandler]
@[simp] theorem State.y_enterHandler (s : State) (ret : Addr) : (s.enterHandler ret).y = s.y := by
  simp [State.enterHandler]
@[simp] theorem State.variant_enterHandler (s : State) (ret : Addr) : (s.enterHandler ret).variant = s.variant := by
  simp [State.enterHandler]
@[simp] theorem State.cyc_enterHandler (s : State) (ret : Addr) : (s.enterHandler ret).cyc = s.cyc := by
  simp [State.enterHandler]

theorem State.wf_mem_enterHandler {s : State} (ret : Addr) (h : Memory.wf s.mem = true) :
    Memory.wf (s.enterHandler ret).mem = true := by
  simpa [State.enterHandler] using State.wf_mem_push s.sr.pushed (State.wf_mem_pushAddr ret h)

/-- Returning from a handler writes these and nothing else (R317). -/
theorem State.returnFromHandler_eq (s : State) :
    s.returnFromHandler =
      (((s.setSr (Flags.unpack s.pullByte)).setSp (s.sp + 1 + 1 + 1))).setPc
        (cat (s.read (stackAddr (s.sp + 1 + 1 + 1))) (s.read (stackAddr (s.sp + 1 + 1)))) := rfl

/-! ### The resolver -/

/-- Only the relative mode looks at `PC` (R115 to R130). -/
theorem State.effectiveAddress_pastOperands (s : State) (i : Instr) (a : AddrMode) (h : ∀ d, a ≠ .rel d) :
    (s.pastOperands i).effectiveAddress a = s.effectiveAddress a := by
  cases a with
  | rel d => exact absurd rfl (h d)
  | _ => rfl

/-- Writing to a destination: the accumulator or one byte of memory (R132). -/
theorem State.read_writeTarget (s : State) (dst : Rmw AddrMode) (v : Byte) (b : Addr) :
    (s.writeTarget dst v).read b =
      match dst with
      | .acc => s.read b
      | .mem a => if b = s.effectiveAddress a then v else s.read b := by
  cases dst with
  | acc => rfl
  | mem a => exact State.read_write s _ b v

theorem State.wf_mem_writeTarget {s : State} (dst : Rmw AddrMode) (v : Byte) (h : Memory.wf s.mem = true) :
    Memory.wf (s.writeTarget dst v).mem = true := by
  cases dst with
  | acc => exact h
  | mem a => exact State.wf_mem_write _ v h

/-! ### The end of an instruction -/

/-- Every instruction ends in the next state `completed` and in nothing else. -/
theorem complete_next {i : Instr} {s t u : State} {k : Bool} : complete i s k t = .next u ↔ completed i s k t = u :=
  ⟨fun h => by injection h, fun h => congrArg _ h⟩

end Sys2Proof.Machine
end

