-- ==== Sys2Proof/Laws/Exec.lean ====
section
/-! SUPPORT. What each shared shape of instruction answers: one lemma per shape, to be cited instead of unfolding it. -/

namespace Sys2Proof.Machine

theorem loadReg_eq (i : Instr) (r : DataReg) (src : Src AddrMode) (s : State) :
    loadReg i r src s =
      .next (completed i s false ((s.pastOperands i).putReg r ((s.pastOperands i).sourceByte src))) := rfl

theorem storeByte_eq (i : Instr) (v : Byte) (a : AddrMode) (s : State) :
    storeByte i v a s =
      .next (completed i s false ((s.pastOperands i).write ((s.pastOperands i).effectiveAddress a) v)) := rfl

theorem transfer_eq (i : Instr) (r : DataReg) (v : Byte) (s : State) :
    transfer i r v s = .next (completed i s false ((s.pastOperands i).putReg r v)) := rfl

theorem logicInto_eq (i : Instr) (f : Byte → Byte → Byte) (src : Src AddrMode) (s : State) :
    logicInto i f src s =
      .next (completed i s false ((s.pastOperands i).putReg .ac (f s.ac ((s.pastOperands i).sourceByte src)))) := rfl

theorem addToReg_eq (i : Instr) (delta : Byte) (r : DataReg) (s : State) :
    addToReg i delta r s =
      .next (completed i s false ((s.pastOperands i).putReg r ((s.pastOperands i).getReg r + delta))) := rfl

theorem pushByte_eq (i : Instr) (v : Byte) (s : State) :
    pushByte i v s = .next (completed i s false ((s.pastOperands i).push v)) := rfl

theorem pullInto_eq (i : Instr) (r : DataReg) (s : State) :
    pullInto i r s =
      .next (completed i s false ((s.pastOperands i).pulled.putReg r (s.pastOperands i).pullByte)) := rfl

theorem writeFlag_eq (i : Instr) (f : Flag) (val : Bool) (s : State) :
    writeFlag i f val s = .next (completed i s false ((s.pastOperands i).setSr (s.sr.set f val))) := rfl

/-- A store changes `PC`, the counters and one byte, nothing else. -/
theorem storeByte_next {i : Instr} {v : Byte} {a : AddrMode} {s t : State} (h : storeByte i v a s = .next t) :
    t.variant = s.variant ∧ t.pc = s.pc + BitVec.ofNat 16 i.length ∧ t.ac = s.ac ∧ t.x = s.x ∧ t.y = s.y ∧ t.sp = s.sp ∧
      t.sr = s.sr ∧
      ∀ b, t.read b = if b = (s.pastOperands i).effectiveAddress a then v else s.read b := by
  rw [storeByte_eq] at h
  injection h with h
  subst h
  refine ⟨by simp, by simp, by simp, by simp, by simp, by simp, by simp, fun b => ?_⟩
  rw [read_completed, State.read_write, State.read_pastOperands]

/-- An addition or subtraction changes `PC`, `AC`, the flags `C V Z N` and the counters, nothing else. -/
theorem addInto_next {i : Instr} {f : Byte → Byte → Bool → AluResult} {src : Src AddrMode} {s t : State}
    (h : addInto i f src s = .next t) :
    t.variant = s.variant ∧ t.pc = s.pc + BitVec.ofNat 16 i.length ∧ t.x = s.x ∧ t.y = s.y ∧ t.sp = s.sp ∧
      t.mem = s.mem ∧
      t.ac = (f s.ac ((s.pastOperands i).sourceByte src) s.sr.c).r ∧
      t.sr = s.sr.withAlu (f s.ac ((s.pastOperands i).sourceByte src) s.sr.c) := by
  unfold addInto at h
  rw [complete_next] at h
  subst h
  simp

/-- A comparison changes `PC`, the flags `C Z N` and the counters, nothing else. -/
theorem compareReg_next {i : Instr} {r : DataReg} {src : Src AddrMode} {s t : State} (h : compareReg i r src s = .next t) :
    t.variant = s.variant ∧ t.pc = s.pc + BitVec.ofNat 16 i.length ∧ t.ac = s.ac ∧ t.x = s.x ∧ t.y = s.y ∧ t.sp = s.sp ∧
      t.mem = s.mem ∧
      t.sr = s.sr.withCompare ((s.pastOperands i).getReg r) ((s.pastOperands i).sourceByte src) := by
  unfold compareReg at h
  rw [complete_next] at h
  subst h
  simp

/-- A test that writes memory changes `PC`, the flag `Z`, one byte and the counters, nothing else. -/
theorem testAndWrite_next {i : Instr} {f : Byte → Byte → Byte} {a : AddrMode} {s t : State}
    (h : testAndWrite i f a s = .next t) :
    t.variant = s.variant ∧ t.pc = s.pc + BitVec.ofNat 16 i.length ∧ t.ac = s.ac ∧ t.x = s.x ∧ t.y = s.y ∧ t.sp = s.sp ∧
      t.sr = s.sr.set .z (s.ac &&& s.read ((s.pastOperands i).effectiveAddress a) == 0) ∧
      ∀ b, t.read b =
        if b = (s.pastOperands i).effectiveAddress a then f (s.read ((s.pastOperands i).effectiveAddress a)) s.ac
        else s.read b := by
  unfold testAndWrite at h
  rw [complete_next] at h
  subst h
  refine ⟨by simp, by simp, by simp, by simp, by simp, by simp, by simp, fun b => ?_⟩
  rw [read_completed, State.read_write, State.read_setSr, State.read_pastOperands]
  simp

/-- An increment or decrement of `AC` or memory: registers other than `AC` and flags other than `Z N` are as before. -/
theorem addToTarget_next {i : Instr} {delta : Byte} {dst : Rmw AddrMode} {s t : State}
    (h : addToTarget i delta dst s = .next t) :
    t.variant = s.variant ∧ t.pc = s.pc + BitVec.ofNat 16 i.length ∧ t.x = s.x ∧ t.y = s.y ∧ t.sp = s.sp ∧
      t.ac = (match dst with | .acc => s.ac + delta | .mem _ => s.ac) ∧
      t.sr = s.sr.updateZeroNegative ((s.pastOperands i).targetByte dst + delta) ∧
      ∀ b, t.read b =
        match dst with
        | .acc => s.read b
        | .mem a =>
          if b = (s.pastOperands i).effectiveAddress a then s.read ((s.pastOperands i).effectiveAddress a) + delta
          else s.read b := by
  unfold addToTarget at h
  rw [complete_next] at h
  subst h
  cases dst with
  | acc => simp [State.writeTarget, State.targetByte]
  | mem a =>
    refine ⟨by simp [State.writeTarget], by simp [State.writeTarget], by simp [State.writeTarget], by simp [State.writeTarget],
      by simp [State.writeTarget], by simp [State.writeTarget], by simp [State.writeTarget], fun b => ?_⟩
    rw [read_completed, State.read_updateZeroNegative, State.read_writeTarget]
    simp [State.targetByte]

/-- A shift or rotate of `AC` or memory: registers other than `AC` and flags other than `C Z N` are as before. -/
theorem shiftTarget_next {i : Instr} {f : Byte → Bool → ShiftResult} {dst : Rmw AddrMode} {s t : State}
    (h : shiftTarget i f dst s = .next t) :
    t.variant = s.variant ∧ t.pc = s.pc + BitVec.ofNat 16 i.length ∧ t.x = s.x ∧ t.y = s.y ∧ t.sp = s.sp ∧
      t.ac = (match dst with | .acc => (f s.ac s.sr.c).r | .mem _ => s.ac) ∧
      t.sr = s.sr.withShift (f ((s.pastOperands i).targetByte dst) s.sr.c) ∧
      ∀ b, t.read b =
        match dst with
        | .acc => s.read b
        | .mem a =>
          if b = (s.pastOperands i).effectiveAddress a then
            (f (s.read ((s.pastOperands i).effectiveAddress a)) s.sr.c).r
          else s.read b := by
  unfold shiftTarget at h
  rw [complete_next] at h
  subst h
  cases dst with
  | acc => simp [State.writeTarget, State.targetByte]
  | mem a =>
    refine ⟨by simp [State.writeTarget], by simp [State.writeTarget], by simp [State.writeTarget], by simp [State.writeTarget],
      by simp [State.writeTarget], by simp [State.writeTarget], by simp [State.writeTarget], fun b => ?_⟩
    rw [read_completed, State.read_setSr, State.read_writeTarget]
    simp [State.targetByte]

/-- A branch changes `PC` and the counters, nothing else. -/
theorem branch_next {i : Instr} {d : Byte} {cond : Bool} {s t : State} (h : branch i d cond s = .next t) :
    t.variant = s.variant ∧ t.ac = s.ac ∧ t.x = s.x ∧ t.y = s.y ∧ t.sp = s.sp ∧ t.sr = s.sr ∧ t.mem = s.mem ∧
      t.pc = (if cond then (s.pc + BitVec.ofNat 16 i.length) + sext16 d else s.pc + BitVec.ofNat 16 i.length) := by
  unfold branch at h
  rw [complete_next] at h
  subst h
  cases cond <;> simp [State.effectiveAddress]

/-- One step is the execution of the instruction fetched (R110). -/
theorem step_eq (s : State) : step s = exec s.fetch s := rfl

end Sys2Proof.Machine
end

