-- ==== Sys2Proof/Laws/PerInstr.lean ====
section
/-! SUPPORT. Statements about every instruction as syntax, one lemma per constructor. -/

/-- The operand bytes of each mode (R81). -/
def Sys2Proof.Laws.modeOperandBytes : Sys2Proof.Mode → Nat
  | .imm | .zp | .zpx | .zpy | .izx | .izy | .izp | .rel => 1
  | .abs | .abx | .aby | .ind | .iax => 2
  | .acc | .imp | .stk => 0

/-- The mode alone fixes the length: one opcode byte and the operand bytes of the mode (R81, R83). -/
def Sys2Proof.Laws.EncodeLength.Statement (i : Sys2Proof.Instr) : Prop :=
  (Sys2Proof.encode i).length = 1 + Sys2Proof.Laws.modeOperandBytes i.mode

section
open Sys2Proof Sys2Proof.Laws.EncodeLength

theorem Sys2Proof.Laws.EncodeLength.adc (src : Src AccMem) : Statement (.adc src) := by
  cases src with
  | imm b => exact rfl
  | mem m => cases m <;> rfl

theorem Sys2Proof.Laws.EncodeLength.and (src : Src AccMem) : Statement (.and src) := by
  cases src with
  | imm b => exact rfl
  | mem m => cases m <;> rfl

theorem Sys2Proof.Laws.EncodeLength.asl (dst : Rmw XMem) : Statement (.asl dst) := by
  cases dst with
  | acc => exact rfl
  | mem m => cases m <;> rfl

theorem Sys2Proof.Laws.EncodeLength.bcc (d : Byte) : Statement (.bcc d) := rfl

theorem Sys2Proof.Laws.EncodeLength.bcs (d : Byte) : Statement (.bcs d) := rfl

theorem Sys2Proof.Laws.EncodeLength.beq (d : Byte) : Statement (.beq d) := rfl

theorem Sys2Proof.Laws.EncodeLength.bit (src : Src XMem) : Statement (.bit src) := by
  cases src with
  | imm b => exact rfl
  | mem m => cases m <;> rfl

theorem Sys2Proof.Laws.EncodeLength.bmi (d : Byte) : Statement (.bmi d) := rfl

theorem Sys2Proof.Laws.EncodeLength.bne (d : Byte) : Statement (.bne d) := rfl

theorem Sys2Proof.Laws.EncodeLength.bpl (d : Byte) : Statement (.bpl d) := rfl

theorem Sys2Proof.Laws.EncodeLength.bra (d : Byte) : Statement (.bra d) := rfl

theorem Sys2Proof.Laws.EncodeLength.brk : Statement (.brk) := rfl

theorem Sys2Proof.Laws.EncodeLength.bvc (d : Byte) : Statement (.bvc d) := rfl

theorem Sys2Proof.Laws.EncodeLength.bvs (d : Byte) : Statement (.bvs d) := rfl

theorem Sys2Proof.Laws.EncodeLength.clc : Statement (.clc) := rfl

theorem Sys2Proof.Laws.EncodeLength.cld : Statement (.cld) := rfl

theorem Sys2Proof.Laws.EncodeLength.cli : Statement (.cli) := rfl

theorem Sys2Proof.Laws.EncodeLength.clv : Statement (.clv) := rfl

theorem Sys2Proof.Laws.EncodeLength.cmp (src : Src AccMem) : Statement (.cmp src) := by
  cases src with
  | imm b => exact rfl
  | mem m => cases m <;> rfl

theorem Sys2Proof.Laws.EncodeLength.cpx (src : Src ZpAbs) : Statement (.cpx src) := by
  cases src with
  | imm b => exact rfl
  | mem m => cases m <;> rfl

theorem Sys2Proof.Laws.EncodeLength.cpy (src : Src ZpAbs) : Statement (.cpy src) := by
  cases src with
  | imm b => exact rfl
  | mem m => cases m <;> rfl

theorem Sys2Proof.Laws.EncodeLength.dec (dst : Rmw XMem) : Statement (.dec dst) := by
  cases dst with
  | acc => exact rfl
  | mem m => cases m <;> rfl

theorem Sys2Proof.Laws.EncodeLength.dex : Statement (.dex) := rfl

theorem Sys2Proof.Laws.EncodeLength.dey : Statement (.dey) := rfl

theorem Sys2Proof.Laws.EncodeLength.eor (src : Src AccMem) : Statement (.eor src) := by
  cases src with
  | imm b => exact rfl
  | mem m => cases m <;> rfl

theorem Sys2Proof.Laws.EncodeLength.inc (dst : Rmw XMem) : Statement (.inc dst) := by
  cases dst with
  | acc => exact rfl
  | mem m => cases m <;> rfl

theorem Sys2Proof.Laws.EncodeLength.inx : Statement (.inx) := rfl

theorem Sys2Proof.Laws.EncodeLength.iny : Statement (.iny) := rfl

theorem Sys2Proof.Laws.EncodeLength.jmp (t : JmpMem) : Statement (.jmp t) := by
  cases t <;> rfl

theorem Sys2Proof.Laws.EncodeLength.jsr (w : Addr) : Statement (.jsr w) := rfl

theorem Sys2Proof.Laws.EncodeLength.lda (src : Src AccMem) : Statement (.lda src) := by
  cases src with
  | imm b => exact rfl
  | mem m => cases m <;> rfl

theorem Sys2Proof.Laws.EncodeLength.ldx (src : Src LdxMem) : Statement (.ldx src) := by
  cases src with
  | imm b => exact rfl
  | mem m => cases m <;> rfl

theorem Sys2Proof.Laws.EncodeLength.ldy (src : Src XMem) : Statement (.ldy src) := by
  cases src with
  | imm b => exact rfl
  | mem m => cases m <;> rfl

theorem Sys2Proof.Laws.EncodeLength.lsr (dst : Rmw XMem) : Statement (.lsr dst) := by
  cases dst with
  | acc => exact rfl
  | mem m => cases m <;> rfl

theorem Sys2Proof.Laws.EncodeLength.nop : Statement (.nop) := rfl

theorem Sys2Proof.Laws.EncodeLength.ora (src : Src AccMem) : Statement (.ora src) := by
  cases src with
  | imm b => exact rfl
  | mem m => cases m <;> rfl

theorem Sys2Proof.Laws.EncodeLength.pha : Statement (.pha) := rfl

theorem Sys2Proof.Laws.EncodeLength.php : Statement (.php) := rfl

theorem Sys2Proof.Laws.EncodeLength.phx : Statement (.phx) := rfl

theorem Sys2Proof.Laws.EncodeLength.phy : Statement (.phy) := rfl

theorem Sys2Proof.Laws.EncodeLength.pla : Statement (.pla) := rfl

theorem Sys2Proof.Laws.EncodeLength.plp : Statement (.plp) := rfl

theorem Sys2Proof.Laws.EncodeLength.plx : Statement (.plx) := rfl

theorem Sys2Proof.Laws.EncodeLength.ply : Statement (.ply) := rfl

theorem Sys2Proof.Laws.EncodeLength.rol (dst : Rmw XMem) : Statement (.rol dst) := by
  cases dst with
  | acc => exact rfl
  | mem m => cases m <;> rfl

theorem Sys2Proof.Laws.EncodeLength.ror (dst : Rmw XMem) : Statement (.ror dst) := by
  cases dst with
  | acc => exact rfl
  | mem m => cases m <;> rfl

theorem Sys2Proof.Laws.EncodeLength.rti : Statement (.rti) := rfl

theorem Sys2Proof.Laws.EncodeLength.rts : Statement (.rts) := rfl

theorem Sys2Proof.Laws.EncodeLength.sbc (src : Src AccMem) : Statement (.sbc src) := by
  cases src with
  | imm b => exact rfl
  | mem m => cases m <;> rfl

theorem Sys2Proof.Laws.EncodeLength.sec : Statement (.sec) := rfl

theorem Sys2Proof.Laws.EncodeLength.sed : Statement (.sed) := rfl

theorem Sys2Proof.Laws.EncodeLength.sei : Statement (.sei) := rfl

theorem Sys2Proof.Laws.EncodeLength.sta (m : AccMem) : Statement (.sta m) := by
  cases m <;> rfl

theorem Sys2Proof.Laws.EncodeLength.stx (m : StxMem) : Statement (.stx m) := by
  cases m <;> rfl

theorem Sys2Proof.Laws.EncodeLength.sty (m : StyMem) : Statement (.sty m) := by
  cases m <;> rfl

theorem Sys2Proof.Laws.EncodeLength.stz (m : XMem) : Statement (.stz m) := by
  cases m <;> rfl

theorem Sys2Proof.Laws.EncodeLength.tax : Statement (.tax) := rfl

theorem Sys2Proof.Laws.EncodeLength.tay : Statement (.tay) := rfl

theorem Sys2Proof.Laws.EncodeLength.trb (m : ZpAbs) : Statement (.trb m) := by
  cases m <;> rfl

theorem Sys2Proof.Laws.EncodeLength.tsb (m : ZpAbs) : Statement (.tsb m) := by
  cases m <;> rfl

theorem Sys2Proof.Laws.EncodeLength.tsx : Statement (.tsx) := rfl

theorem Sys2Proof.Laws.EncodeLength.txa : Statement (.txa) := rfl

theorem Sys2Proof.Laws.EncodeLength.txs : Statement (.txs) := rfl

theorem Sys2Proof.Laws.EncodeLength.tya : Statement (.tya) := rfl

theorem Sys2Proof.Laws.EncodeLength.invalid (b : Byte) : Statement (.invalid b) := rfl

end
end

