-- ==== Sys2Proof/Tests/Slice0.lean ====
section
/-! SUPPORT. Tests: words of the spec's encodings, terms the well-formedness check refuses, one or two vectors of spec/95 per
instruction (the expected columns are the spec's), and a witness for the hypotheses of each statement. -/

namespace Sys2Proof.Tests

open Sys2Proof Sys2Proof.Machine

/-! ### Well-formedness: one ill-formed term for each check -/

theorem test_ill_formed_mode_izp : (Instr.lda (.mem (.izp 0x40))).wellFormed .nmos = false := by decide
theorem test_ill_formed_store_izp : (Instr.sta (.izp 0x40)).wellFormed .nmos = false := by decide
theorem test_ill_formed_bit_imm : (Instr.bit (.imm 0x01)).wellFormed .nmos = false := by decide
theorem test_ill_formed_bit_zpx : (Instr.bit (.mem (.zpx 0x01))).wellFormed .nmos = false := by decide
theorem test_ill_formed_bit_abx : (Instr.bit (.mem (.abx 0x0001))).wellFormed .nmos = false := by decide
theorem test_ill_formed_inc_acc : (Instr.inc .acc).wellFormed .nmos = false := by decide
theorem test_ill_formed_jmp_iax : (Instr.jmp (.iax 0x1234)).wellFormed .nmos = false := by decide
theorem test_ill_formed_mnemonic : (Instr.bra 0x02).wellFormed .nmos = false := by decide
theorem test_ill_formed_invalid_nmos : (Instr.invalid 0xA9).wellFormed .nmos = false := by decide
theorem test_ill_formed_invalid_cmos : (Instr.invalid 0x80).wellFormed .cmos = false := by decide
theorem test_well_formed_both : ∀ v : Variant, (Instr.bit (.mem (.zp 0x01))).wellFormed v = true := by
  intro v; cases v <;> decide

/-! ### Decoding -/

/-- Words of loads and stores, from the bits of spec/opcode_table.json. -/
theorem test_decode_load_store :
    decode .cmos [0b10110001, 0x34] = .ok (.lda (.mem (.izy 0x34)), []) ∧
    decode .cmos [0b10110110, 0x34] = .ok (.ldx (.mem (.zpy 0x34)), []) ∧
    decode .cmos [0b10111100, 0x34, 0x12] = .ok (.ldy (.mem (.abx 0x1234)), []) ∧
    decode .cmos [0b10010010, 0x34] = .ok (.sta (.izp 0x34), []) ∧
    decode .cmos [0b10001110, 0x34, 0x12] = .ok (.stx (.abs 0x1234), []) ∧
    decode .cmos [0b10010100, 0x34] = .ok (.sty (.zpx 0x34), []) ∧
    decode .cmos [0b10011110, 0x34, 0x12] = .ok (.stz (.abx 0x1234), []) ∧
    decode .cmos [0b10101010] = .ok (.tax, []) ∧
    decode .cmos [0b10101000] = .ok (.tay, []) ∧
    decode .cmos [0b10001010] = .ok (.txa, []) ∧
    decode .cmos [0b10011000] = .ok (.tya, []) ∧
    decode .cmos [0b10111010] = .ok (.tsx, []) ∧
    decode .cmos [0b10011010] = .ok (.txs, []) := by
  (repeat' apply And.intro) <;> decide

/-- Words of arithmetic and logic, from the bits of spec/opcode_table.json. -/
theorem test_decode_arith :
    decode .cmos [0b01111001, 0x34, 0x12] = .ok (.adc (.mem (.aby 0x1234)), []) ∧
    decode .cmos [0b11100001, 0x34] = .ok (.sbc (.mem (.izx 0x34)), []) ∧
    decode .cmos [0b00101001, 0x34] = .ok (.and (.imm 0x34), []) ∧
    decode .cmos [0b00000101, 0x34] = .ok (.ora (.mem (.zp 0x34)), []) ∧
    decode .cmos [0b01011101, 0x34, 0x12] = .ok (.eor (.mem (.abx 0x1234)), []) ∧
    decode .cmos [0b11010001, 0x34] = .ok (.cmp (.mem (.izy 0x34)), []) ∧
    decode .cmos [0b11101100, 0x34, 0x12] = .ok (.cpx (.mem (.abs 0x1234)), []) ∧
    decode .cmos [0b11000000, 0x34] = .ok (.cpy (.imm 0x34), []) ∧
    decode .cmos [0b00111100, 0x34, 0x12] = .ok (.bit (.mem (.abx 0x1234)), []) ∧
    decode .cmos [0b00010100, 0x34] = .ok (.trb (.zp 0x34), []) ∧
    decode .cmos [0b00001100, 0x34, 0x12] = .ok (.tsb (.abs 0x1234), []) := by
  (repeat' apply And.intro) <;> decide

/-- Words of increments, decrements, shifts and rotates, from the bits of spec/opcode_table.json. -/
theorem test_decode_inc_shift :
    decode .cmos [0b00011010] = .ok (.inc .acc, []) ∧
    decode .cmos [0b11011110, 0x34, 0x12] = .ok (.dec (.mem (.abx 0x1234)), []) ∧
    decode .cmos [0b11101000] = .ok (.inx, []) ∧
    decode .cmos [0b11001000] = .ok (.iny, []) ∧
    decode .cmos [0b11001010] = .ok (.dex, []) ∧
    decode .cmos [0b10001000] = .ok (.dey, []) ∧
    decode .cmos [0b00001010] = .ok (.asl .acc, []) ∧
    decode .cmos [0b01010110, 0x34] = .ok (.lsr (.mem (.zpx 0x34)), []) ∧
    decode .cmos [0b00101110, 0x34, 0x12] = .ok (.rol (.mem (.abs 0x1234)), []) ∧
    decode .cmos [0b01100110, 0x34] = .ok (.ror (.mem (.zp 0x34)), []) := by
  (repeat' apply And.intro) <;> decide

/-- Words of branches, from the bits of spec/opcode_table.json. -/
theorem test_decode_branch :
    decode .cmos [0b00010000, 0x34] = .ok (.bpl 0x34, []) ∧
    decode .cmos [0b00110000, 0x34] = .ok (.bmi 0x34, []) ∧
    decode .cmos [0b01010000, 0x34] = .ok (.bvc 0x34, []) ∧
    decode .cmos [0b01110000, 0x34] = .ok (.bvs 0x34, []) ∧
    decode .cmos [0b10010000, 0x34] = .ok (.bcc 0x34, []) ∧
    decode .cmos [0b10110000, 0x34] = .ok (.bcs 0x34, []) ∧
    decode .cmos [0b11010000, 0x34] = .ok (.bne 0x34, []) ∧
    decode .cmos [0b11110000, 0x34] = .ok (.beq 0x34, []) ∧
    decode .cmos [0b10000000, 0x34] = .ok (.bra 0x34, []) := by
  (repeat' apply And.intro) <;> decide

/-- Words of jumps, call and returns, from the bits of spec/opcode_table.json. -/
theorem test_decode_jump :
    decode .cmos [0b01101100, 0x34, 0x12] = .ok (.jmp (.ind 0x1234), []) ∧
    decode .cmos [0b00100000, 0x34, 0x12] = .ok (.jsr 0x1234, []) ∧
    decode .cmos [0b01100000] = .ok (.rts, []) ∧
    decode .cmos [0b01000000] = .ok (.rti, []) := by
  (repeat' apply And.intro) <;> decide

/-- Words of stack, from the bits of spec/opcode_table.json. -/
theorem test_decode_stack :
    decode .cmos [0b01001000] = .ok (.pha, []) ∧
    decode .cmos [0b00001000] = .ok (.php, []) ∧
    decode .cmos [0b01101000] = .ok (.pla, []) ∧
    decode .cmos [0b00101000] = .ok (.plp, []) ∧
    decode .cmos [0b11011010] = .ok (.phx, []) ∧
    decode .cmos [0b01011010] = .ok (.phy, []) ∧
    decode .cmos [0b11111010] = .ok (.plx, []) ∧
    decode .cmos [0b01111010] = .ok (.ply, []) := by
  (repeat' apply And.intro) <;> decide

/-- Words of flags and the rest, from the bits of spec/opcode_table.json. -/
theorem test_decode_flag :
    decode .cmos [0b00011000] = .ok (.clc, []) ∧
    decode .cmos [0b00111000] = .ok (.sec, []) ∧
    decode .cmos [0b01011000] = .ok (.cli, []) ∧
    decode .cmos [0b01111000] = .ok (.sei, []) ∧
    decode .cmos [0b11011000] = .ok (.cld, []) ∧
    decode .cmos [0b11111000] = .ok (.sed, []) ∧
    decode .cmos [0b10111000] = .ok (.clv, []) ∧
    decode .cmos [0b00000000] = .ok (.brk, []) ∧
    decode .cmos [0b11101010] = .ok (.nop, []) ∧
    decode .cmos [0b00000010] = .ok (.invalid 0b00000010, []) := by
  (repeat' apply And.intro) <;> decide

theorem test_decode_nmos_rejects_addition : decode .nmos [0x80, 0x34] = .ok (.invalid 0x80, [0x34]) := by decide
theorem test_decode_no_opcode : decode .cmos [] = .error .noOpcode := by decide
theorem test_decode_missing_operand : decode .cmos [0xAD, 0x34] = .error .missingOperand := by decide
theorem test_table_word : decodeTableWord 24 0x1234AD = some (.lda (.mem (.abs 0x1234))) := by decide
theorem test_fetch_word : step (State.reset.withFetchWord 16 0x34A9) = exec (.lda (.imm 0x34)) (State.reset.withFetchWord 16 0x34A9) := by
  rfl

/-! ### One step: the vectors of spec/95_test_vectors.md, named by their number -/

/-- The state after reset, the variant chosen. -/
def start (v : Variant) : State := { State.reset with variant := v }

/-- Bytes put in memory. -/
def poke (s : State) : List (Addr × Byte) → State
  | [] => s
  | (a, v) :: rest => poke (s.write a v) rest

/-- Whether one step from `s`, with `code` at `PC` and `before` in memory, leaves exactly these registers, this packed `SR`, these
bytes written and no others, this `PC`, this cost and this `invalid` mark. -/
def check (s : State) (code : List Byte) (before : List (Addr × Byte)) (ac x y sp sr : Byte)
    (written : List (Addr × Byte)) (pc : Addr) (cycles : Nat) (invalid : Bool) : Bool :=
  let s := poke (s.placeCode code) before
  match step s with
  | .next t =>
    t.ac == ac && t.x == x && t.y == y && t.sp == sp && t.sr.pack == sr && t.pc == pc && t.cyc == cycles &&
      t.mem == (poke s written).mem && t.reportedInvalid == invalid
  | .fault _ => false
  | .refused _ => false

theorem test_adc_V30 :
    check { start .nmos with pc := 0x0600, ac := 0x50, sr := Flags.unpack 0x34 } [0x69, 0x50] []
    0xA0 0x00 0x00 0xFF 0xF4 [] 0x0602 2 false = true := by decide

theorem test_adc_V51_nmos :
    check { start .nmos with pc := 0x0600, ac := 0x99, sr := Flags.unpack 0x3C } [0x69, 0x01] []
    0x00 0x00 0x00 0xFF 0xBD [] 0x0602 2 false = true := by decide

theorem test_and_V70 :
    check { start .nmos with pc := 0x0600, ac := 0xF0, sr := Flags.unpack 0x34 } [0x29, 0x0F] []
    0x00 0x00 0x00 0xFF 0x36 [] 0x0602 2 false = true := by decide

theorem test_asl_V113 :
    check { start .cmos with pc := 0x0600, ac := 0x41, sr := Flags.unpack 0x35 } [0x0A] []
    0x82 0x00 0x00 0xFF 0xB4 [] 0x0601 2 false = true := by decide

theorem test_asl_V123_cmos :
    check { start .cmos with pc := 0x0600, x := 0x01, sr := Flags.unpack 0x34 } [0x1E, 0xFF, 0x20] [(0x2100, 0x40)]
    0x00 0x01 0x00 0xFF 0xB4 [(0x2100, 0x80)] 0x0603 7 false = true := by decide

theorem test_bcc_V158 :
    check { start .cmos with pc := 0x0600, sr := Flags.unpack 0x34 } [0x90, 0x02] []
    0x00 0x00 0x00 0xFF 0x34 [] 0x0604 3 false = true := by decide

theorem test_bcc_V159 :
    check { start .nmos with pc := 0x0600, sr := Flags.unpack 0x35 } [0x90, 0x02] []
    0x00 0x00 0x00 0xFF 0x35 [] 0x0602 2 false = true := by decide

theorem test_bcs_V160 :
    check { start .cmos with pc := 0x0600, sr := Flags.unpack 0x34 } [0xB0, 0x02] []
    0x00 0x00 0x00 0xFF 0x34 [] 0x0602 2 false = true := by decide

theorem test_bcs_V161 :
    check { start .nmos with pc := 0x0600, sr := Flags.unpack 0x35 } [0xB0, 0x02] []
    0x00 0x00 0x00 0xFF 0x35 [] 0x0604 3 false = true := by decide

theorem test_beq_V142 :
    check { start .cmos with pc := 0x0600, sr := Flags.unpack 0x36 } [0xF0, 0xFC] []
    0x00 0x00 0x00 0xFF 0x36 [] 0x05FE 4 false = true := by decide

theorem test_beq_V164 :
    check { start .nmos with pc := 0x0600, sr := Flags.unpack 0x34 } [0xF0, 0x02] []
    0x00 0x00 0x00 0xFF 0x34 [] 0x0602 2 false = true := by decide

theorem test_bit_V82 :
    check { start .cmos with pc := 0x0600, ac := 0xFF, sr := Flags.unpack 0xF6 } [0x2C, 0x00, 0x20] [(0x2000, 0x3F)]
    0xFF 0x00 0x00 0xFF 0x34 [] 0x0603 4 false = true := by decide

theorem test_bit_V83_cmos :
    check { start .cmos with pc := 0x0600, ac := 0xFF, sr := Flags.unpack 0xF4 } [0x89, 0x00] []
    0xFF 0x00 0x00 0xFF 0xF6 [] 0x0602 2 false = true := by decide

theorem test_bmi_V152 :
    check { start .cmos with pc := 0x0600, sr := Flags.unpack 0x34 } [0x30, 0x02] []
    0x00 0x00 0x00 0xFF 0x34 [] 0x0602 2 false = true := by decide

theorem test_bmi_V153 :
    check { start .nmos with pc := 0x0600, sr := Flags.unpack 0xB4 } [0x30, 0x02] []
    0x00 0x00 0x00 0xFF 0xB4 [] 0x0604 3 false = true := by decide

theorem test_bne_V143 :
    check { start .cmos with pc := 0x06F0, sr := Flags.unpack 0x34 } [0xD0, 0x10] []
    0x00 0x00 0x00 0xFF 0x34 [] 0x0702 4 false = true := by decide

theorem test_bne_V146 :
    check { start .nmos with pc := 0x0600, sr := Flags.unpack 0x34 } [0xD0, 0xFE] []
    0x00 0x00 0x00 0xFF 0x34 [] 0x0600 3 false = true := by decide

theorem test_bpl_V148 :
    check { start .cmos with pc := 0xFFFE, sr := Flags.unpack 0x34 } [0x10, 0x05] []
    0x00 0x00 0x00 0xFF 0x34 [] 0x0005 3 false = true := by decide

theorem test_bpl_V149 :
    check { start .nmos with pc := 0x0000, sr := Flags.unpack 0x34 } [0x10, 0xFB] []
    0x00 0x00 0x00 0xFF 0x34 [] 0xFFFD 4 false = true := by decide

theorem test_bra_V167_cmos :
    check { start .cmos with pc := 0x0600, sr := Flags.unpack 0x34 } [0x80, 0xFC] []
    0x00 0x00 0x00 0xFF 0x34 [] 0x05FE 4 false = true := by decide

theorem test_brk_V221_nmos :
    check { start .nmos with pc := 0x0600, sr := Flags.unpack 0xCB } [0x00, 0xEA] [(0xFFFE, 0x00), (0xFFFF, 0x90)]
    0x00 0x00 0x00 0xFC 0xCF [(0x01FF, 0x06), (0x01FE, 0x02), (0x01FD, 0xFB)] 0x9000 7 false = true := by decide

theorem test_brk_V221_cmos :
    check { start .cmos with pc := 0x0600, sr := Flags.unpack 0xCB } [0x00, 0xEA] [(0xFFFE, 0x00), (0xFFFF, 0x90)]
    0x00 0x00 0x00 0xFC 0xC7 [(0x01FF, 0x06), (0x01FE, 0x02), (0x01FD, 0xFB)] 0x9000 7 false = true := by decide

theorem test_bvc_V154 :
    check { start .nmos with pc := 0x0600, sr := Flags.unpack 0x34 } [0x50, 0x02] []
    0x00 0x00 0x00 0xFF 0x34 [] 0x0604 3 false = true := by decide

theorem test_bvc_V155 :
    check { start .cmos with pc := 0x0600, sr := Flags.unpack 0x74 } [0x50, 0x02] []
    0x00 0x00 0x00 0xFF 0x74 [] 0x0602 2 false = true := by decide

theorem test_bvs_V156 :
    check { start .nmos with pc := 0x0600, sr := Flags.unpack 0x34 } [0x70, 0x02] []
    0x00 0x00 0x00 0xFF 0x34 [] 0x0602 2 false = true := by decide

theorem test_bvs_V157 :
    check { start .cmos with pc := 0x0600, sr := Flags.unpack 0x74 } [0x70, 0x02] []
    0x00 0x00 0x00 0xFF 0x74 [] 0x0604 3 false = true := by decide

theorem test_clc_V212 :
    check { start .nmos with pc := 0x0600, sr := Flags.unpack 0xFF } [0x18] []
    0x00 0x00 0x00 0xFF 0xFE [] 0x0601 2 false = true := by decide

theorem test_cld_V216 :
    check { start .cmos with pc := 0x0600, sr := Flags.unpack 0xFF } [0xD8] []
    0x00 0x00 0x00 0xFF 0xF7 [] 0x0601 2 false = true := by decide

theorem test_cli_V214 :
    check { start .nmos with pc := 0x0600, sr := Flags.unpack 0xFF } [0x58] []
    0x00 0x00 0x00 0xFF 0xFB [] 0x0601 2 false = true := by decide

theorem test_clv_V218 :
    check { start .cmos with pc := 0x0600, sr := Flags.unpack 0xFF } [0xB8] []
    0x00 0x00 0x00 0xFF 0xBF [] 0x0601 2 false = true := by decide

theorem test_cmp_V76 :
    check { start .nmos with pc := 0x0600, ac := 0x80, sr := Flags.unpack 0xF4 } [0xC9, 0x01] []
    0x80 0x00 0x00 0xFF 0x75 [] 0x0602 2 false = true := by decide

theorem test_cmp_V80 :
    check { start .cmos with pc := 0x0600, ac := 0x40, sr := Flags.unpack 0x3D } [0xC9, 0x40] []
    0x40 0x00 0x00 0xFF 0x3F [] 0x0602 2 false = true := by decide

theorem test_cpx_V78 :
    check { start .nmos with pc := 0x0600, x := 0x20, sr := Flags.unpack 0x34 } [0xE0, 0x10] []
    0x00 0x20 0x00 0xFF 0x35 [] 0x0602 2 false = true := by decide

theorem test_cpy_V79 :
    check { start .cmos with pc := 0x0600, y := 0x10, sr := Flags.unpack 0x34 } [0xC4, 0x10] [(0x0010, 0x90)]
    0x00 0x00 0x10 0xFF 0xB4 [] 0x0602 3 false = true := by decide

theorem test_dec_V102 :
    check { start .nmos with pc := 0x0600, sr := Flags.unpack 0x34 } [0xC6, 0x10] [(0x0010, 0x00)]
    0x00 0x00 0x00 0xFF 0xB4 [(0x0010, 0xFF)] 0x0602 5 false = true := by decide

theorem test_dec_V111_cmos :
    check { start .cmos with pc := 0x0600, ac := 0x00, sr := Flags.unpack 0x34 } [0x3A] []
    0xFF 0x00 0x00 0xFF 0xB4 [] 0x0601 2 false = true := by decide

theorem test_dex_V108 :
    check { start .nmos with pc := 0x0600, x := 0x01, sr := Flags.unpack 0x34 } [0xCA] []
    0x00 0x00 0x00 0xFF 0x36 [] 0x0601 2 false = true := by decide

theorem test_dey_V109 :
    check { start .cmos with pc := 0x0600, y := 0x00, sr := Flags.unpack 0x34 } [0x88] []
    0x00 0x00 0xFF 0xFF 0xB4 [] 0x0601 2 false = true := by decide

theorem test_eor_V73 :
    check { start .nmos with pc := 0x0600, ac := 0x0F, sr := Flags.unpack 0x35 } [0x49, 0xFF] []
    0xF0 0x00 0x00 0xFF 0xB5 [] 0x0602 2 false = true := by decide

theorem test_inc_V104 :
    check { start .cmos with pc := 0x0600, x := 0x01, sr := Flags.unpack 0x34 } [0xFE, 0xFF, 0x20] [(0x2100, 0x41)]
    0x00 0x01 0x00 0xFF 0x34 [(0x2100, 0x42)] 0x0603 7 false = true := by decide

theorem test_inc_V110_cmos :
    check { start .cmos with pc := 0x0600, ac := 0xFF, sr := Flags.unpack 0x34 } [0x1A] []
    0x00 0x00 0x00 0xFF 0x36 [] 0x0601 2 false = true := by decide

theorem test_invalid_V223 :
    check { start .cmos with pc := 0x0600, ac := 0x12, x := 0x34, y := 0x56, sp := 0x78, sr := Flags.unpack 0xCB } [0x02] []
    0x12 0x34 0x56 0x78 0xCB [] 0x0601 1 true = true := by decide

theorem test_invalid_V226_nmos :
    check { start .nmos with pc := 0x0600, ac := 0xFF } [0x07, 0x10] [(0x0010, 0xFF)]
    0xFF 0x00 0x00 0xFF 0x34 [] 0x0601 1 true = true := by decide

theorem test_inx_V106 :
    check { start .cmos with pc := 0x0600, x := 0xFF, sr := Flags.unpack 0x34 } [0xE8] []
    0x00 0x00 0x00 0xFF 0x36 [] 0x0601 2 false = true := by decide

theorem test_iny_V107 :
    check { start .nmos with pc := 0x0600, y := 0x7F, sr := Flags.unpack 0x34 } [0xC8] []
    0x00 0x00 0x80 0xFF 0xB4 [] 0x0601 2 false = true := by decide

theorem test_jmp_V170_nmos :
    check { start .nmos with pc := 0x0600 } [0x6C, 0xFF, 0x10] [(0x1000, 0x12), (0x10FF, 0x34), (0x1100, 0x56)]
    0x00 0x00 0x00 0xFF 0x34 [] 0x1234 5 false = true := by decide

theorem test_jmp_V170_cmos :
    check { start .cmos with pc := 0x0600 } [0x6C, 0xFF, 0x10] [(0x1000, 0x12), (0x10FF, 0x34), (0x1100, 0x56)]
    0x00 0x00 0x00 0xFF 0x34 [] 0x5634 6 false = true := by decide

theorem test_jsr_V172 :
    check { start .cmos with pc := 0x0600 } [0x20, 0x34, 0x12] []
    0x00 0x00 0x00 0xFD 0x34 [(0x01FF, 0x06), (0x01FE, 0x02)] 0x1234 6 false = true := by decide

theorem test_jsr_V174 :
    check { start .nmos with pc := 0x0600, sp := 0x00 } [0x20, 0x34, 0x12] []
    0x00 0x00 0x00 0xFE 0x34 [(0x0100, 0x06), (0x01FF, 0x02)] 0x1234 6 false = true := by decide

theorem test_lda_V9 :
    check { start .cmos with pc := 0x0600, x := 0x01 } [0xA1, 0xFE] [(0x0000, 0x12), (0x00FF, 0x34), (0x0100, 0x99), (0x1234, 0x77)]
    0x77 0x01 0x00 0xFF 0x34 [] 0x0602 6 false = true := by decide

theorem test_lda_V10 :
    check { start .nmos with pc := 0x0600, y := 0x01 } [0xB1, 0xFF] [(0x0000, 0x20), (0x00FF, 0xFF), (0x2100, 0x66)]
    0x66 0x00 0x01 0xFF 0x34 [] 0x0602 6 false = true := by decide

theorem test_ldx_V13 :
    check { start .cmos with pc := 0x0600, y := 0xFF, sr := Flags.unpack 0x34 } [0xB6, 0x80] [(0x007F, 0x00)]
    0x00 0x00 0xFF 0xFF 0x36 [] 0x0602 4 false = true := by decide

theorem test_ldy_V14 :
    check { start .nmos with pc := 0x0600, x := 0x20 } [0xBC, 0xF0, 0x30] [(0x3110, 0xF0)]
    0x00 0x20 0xF0 0xFF 0xB4 [] 0x0603 5 false = true := by decide

theorem test_lsr_V114 :
    check { start .cmos with pc := 0x0600, ac := 0x01, sr := Flags.unpack 0xB4 } [0x4A] []
    0x00 0x00 0x00 0xFF 0x37 [] 0x0601 2 false = true := by decide

theorem test_lsr_V120 :
    check { start .nmos with pc := 0x0600, x := 0xF0, sr := Flags.unpack 0x34 } [0x56, 0x10] [(0x0000, 0x03)]
    0x00 0xF0 0x00 0xFF 0x35 [(0x0000, 0x01)] 0x0602 6 false = true := by decide

theorem test_nop_V219 :
    check { start .cmos with pc := 0x0600, ac := 0x12, x := 0x34, y := 0x56, sp := 0x78, sr := Flags.unpack 0xCB } [0xEA] []
    0x12 0x34 0x56 0x78 0xCB [] 0x0601 2 false = true := by decide

theorem test_nop_V227 :
    check { start .nmos with pc := 0xFFFF } [0xEA] []
    0x00 0x00 0x00 0xFF 0x34 [] 0x0000 2 false = true := by decide

theorem test_ora_V71 :
    check { start .cmos with pc := 0x0600, ac := 0x01, sr := Flags.unpack 0x34 } [0x09, 0x80] []
    0x81 0x00 0x00 0xFF 0xB4 [] 0x0602 2 false = true := by decide

theorem test_pha_V200 :
    check { start .nmos with pc := 0x0600, ac := 0x5A } [0x48] []
    0x5A 0x00 0x00 0xFE 0x34 [(0x01FF, 0x5A)] 0x0601 3 false = true := by decide

theorem test_pha_V201 :
    check { start .cmos with pc := 0x0600, ac := 0x5A, sp := 0x00 } [0x48] []
    0x5A 0x00 0x00 0xFF 0x34 [(0x0100, 0x5A)] 0x0601 3 false = true := by decide

theorem test_php_V202 :
    check { start .nmos with pc := 0x0600, sr := Flags.unpack 0x34 } [0x08] []
    0x00 0x00 0x00 0xFE 0x34 [(0x01FF, 0x34)] 0x0601 3 false = true := by decide

theorem test_php_V203 :
    check { start .cmos with pc := 0x0600, sr := Flags.unpack 0xC3 } [0x08] []
    0x00 0x00 0x00 0xFE 0xC3 [(0x01FF, 0xF3)] 0x0601 3 false = true := by decide

theorem test_phx_V208_cmos :
    check { start .cmos with pc := 0x0600, x := 0x77 } [0xDA] []
    0x00 0x77 0x00 0xFE 0x34 [(0x01FF, 0x77)] 0x0601 3 false = true := by decide

theorem test_phy_V209_cmos :
    check { start .cmos with pc := 0x0600, y := 0x88 } [0x5A] []
    0x00 0x00 0x88 0xFE 0x34 [(0x01FF, 0x88)] 0x0601 3 false = true := by decide

theorem test_pla_V204 :
    check { start .nmos with pc := 0x0600, ac := 0x11, sp := 0xFE, sr := Flags.unpack 0x34 } [0x68] [(0x01FF, 0x00)]
    0x00 0x00 0x00 0xFF 0x36 [] 0x0601 4 false = true := by decide

theorem test_pla_V205 :
    check { start .cmos with pc := 0x0600, sp := 0xFF, sr := Flags.unpack 0x34 } [0x68] [(0x0100, 0x80)]
    0x80 0x00 0x00 0x00 0xB4 [] 0x0601 4 false = true := by decide

theorem test_plp_V206 :
    check { start .nmos with pc := 0x0600, sp := 0xFE, sr := Flags.unpack 0x34 } [0x28] [(0x01FF, 0x00)]
    0x00 0x00 0x00 0xFF 0x00 [] 0x0601 4 false = true := by decide

theorem test_plp_V207 :
    check { start .cmos with pc := 0x0600, sp := 0xFE, sr := Flags.unpack 0x34 } [0x28] [(0x01FF, 0xFF)]
    0x00 0x00 0x00 0xFF 0xFF [] 0x0601 4 false = true := by decide

theorem test_plx_V210_cmos :
    check { start .cmos with pc := 0x0600, sp := 0xFE } [0xFA] [(0x01FF, 0x00)]
    0x00 0x00 0x00 0xFF 0x36 [] 0x0601 4 false = true := by decide

theorem test_ply_V211_cmos :
    check { start .cmos with pc := 0x0600, sp := 0xFE } [0x7A] [(0x01FF, 0xF0)]
    0x00 0x00 0xF0 0xFF 0xB4 [] 0x0601 4 false = true := by decide

theorem test_rol_V116 :
    check { start .nmos with pc := 0x0600, ac := 0x80, sr := Flags.unpack 0x34 } [0x2A] []
    0x00 0x00 0x00 0xFF 0x37 [] 0x0601 2 false = true := by decide

theorem test_rol_V121 :
    check { start .cmos with pc := 0x0600, sr := Flags.unpack 0x35 } [0x2E, 0x00, 0x20] [(0x2000, 0x55)]
    0x00 0x00 0x00 0xFF 0xB4 [(0x2000, 0xAB)] 0x0603 6 false = true := by decide

theorem test_ror_V118 :
    check { start .nmos with pc := 0x0600, ac := 0x01, sr := Flags.unpack 0x34 } [0x6A] []
    0x00 0x00 0x00 0xFF 0x37 [] 0x0601 2 false = true := by decide

theorem test_ror_V122_nmos :
    check { start .nmos with pc := 0x0600, x := 0x01, sr := Flags.unpack 0x35 } [0x7E, 0x00, 0x20] [(0x2001, 0x02)]
    0x00 0x01 0x00 0xFF 0xB4 [(0x2001, 0x81)] 0x0603 7 false = true := by decide

theorem test_rti_V176 :
    check { start .nmos with pc := 0x0600, sp := 0xFC } [0x40] [(0x01FD, 0xC3), (0x01FE, 0x02), (0x01FF, 0x06)]
    0x00 0x00 0x00 0xFF 0xC3 [] 0x0602 6 false = true := by decide

theorem test_rti_V177 :
    check { start .cmos with pc := 0x0600, sp := 0xFC, sr := Flags.unpack 0xCB } [0x40] [(0x01FD, 0x34), (0x01FE, 0x02), (0x01FF, 0x06)]
    0x00 0x00 0x00 0xFF 0x34 [] 0x0602 6 false = true := by decide

theorem test_rts_V173 :
    check { start .nmos with pc := 0x0600, sp := 0xFD } [0x60] [(0x01FE, 0x02), (0x01FF, 0x06)]
    0x00 0x00 0x00 0xFF 0x34 [] 0x0603 6 false = true := by decide

theorem test_rts_V175 :
    check { start .cmos with pc := 0x0600, sp := 0xFE } [0x60] [(0x0100, 0xFF), (0x01FF, 0xFF)]
    0x00 0x00 0x00 0x00 0x34 [] 0x0000 6 false = true := by decide

theorem test_sbc_V37 :
    check { start .nmos with pc := 0x0600, ac := 0x50, sr := Flags.unpack 0x35 } [0xE9, 0xB0] []
    0xA0 0x00 0x00 0xFF 0xF4 [] 0x0602 2 false = true := by decide

theorem test_sbc_V58_cmos :
    check { start .cmos with pc := 0x0600, ac := 0x32, sr := Flags.unpack 0x3C } [0xE9, 0x02] []
    0x29 0x00 0x00 0xFF 0x3D [] 0x0602 3 false = true := by decide

theorem test_sec_V213 :
    check { start .nmos with pc := 0x0600, sr := Flags.unpack 0x34 } [0x38] []
    0x00 0x00 0x00 0xFF 0x35 [] 0x0601 2 false = true := by decide

theorem test_sed_V217 :
    check { start .cmos with pc := 0x0600, sr := Flags.unpack 0x34 } [0xF8] []
    0x00 0x00 0x00 0xFF 0x3C [] 0x0601 2 false = true := by decide

theorem test_sei_V215 :
    check { start .nmos with pc := 0x0600, sr := Flags.unpack 0x30 } [0x78] []
    0x00 0x00 0x00 0xFF 0x34 [] 0x0601 2 false = true := by decide

theorem test_sta_V15 :
    check { start .cmos with pc := 0x0600, ac := 0x5A, x := 0x01 } [0x9D, 0xFF, 0x20] []
    0x5A 0x01 0x00 0xFF 0x34 [(0x2100, 0x5A)] 0x0603 5 false = true := by decide

theorem test_sta_V16 :
    check { start .nmos with pc := 0x0600, ac := 0x5B, y := 0xFF } [0x91, 0x40] [(0x0040, 0x01), (0x0041, 0x20)]
    0x5B 0x00 0xFF 0xFF 0x34 [(0x2100, 0x5B)] 0x0602 6 false = true := by decide

theorem test_stx_V17 :
    check { start .cmos with pc := 0x0600, x := 0x77, y := 0x20 } [0x96, 0xF0] []
    0x00 0x77 0x20 0xFF 0x34 [(0x0010, 0x77)] 0x0602 4 false = true := by decide

theorem test_sty_V18 :
    check { start .nmos with pc := 0x0600, x := 0x05, y := 0x88, sr := Flags.unpack 0xB6 } [0x94, 0x10] []
    0x00 0x05 0x88 0xFF 0xB6 [(0x0015, 0x88)] 0x0602 4 false = true := by decide

theorem test_stz_V19_cmos :
    check { start .cmos with pc := 0x0600, x := 0x10 } [0x9E, 0x00, 0x30] [(0x3010, 0xEE)]
    0x00 0x10 0x00 0xFF 0x34 [(0x3010, 0x00)] 0x0603 5 false = true := by decide

theorem test_tax_V20 :
    check { start .nmos with pc := 0x0600, ac := 0x80 } [0xAA] []
    0x80 0x80 0x00 0xFF 0xB4 [] 0x0601 2 false = true := by decide

theorem test_tay_V21 :
    check { start .cmos with pc := 0x0600, ac := 0x00, sr := Flags.unpack 0xB4 } [0xA8] []
    0x00 0x00 0x00 0xFF 0x36 [] 0x0601 2 false = true := by decide

theorem test_trb_V86_cmos :
    check { start .cmos with pc := 0x0600, ac := 0x0F, sr := Flags.unpack 0x34 } [0x14, 0x10] [(0x0010, 0xFF)]
    0x0F 0x00 0x00 0xFF 0x34 [(0x0010, 0xF0)] 0x0602 5 false = true := by decide

theorem test_trb_V87_cmos :
    check { start .cmos with pc := 0x0600, ac := 0xFF, sr := Flags.unpack 0x36 } [0x1C, 0x00, 0x20] [(0x2000, 0x00)]
    0xFF 0x00 0x00 0xFF 0x36 [(0x2000, 0x00)] 0x0603 6 false = true := by decide

theorem test_tsb_V85_cmos :
    check { start .cmos with pc := 0x0600, ac := 0x0F, sr := Flags.unpack 0x34 } [0x04, 0x10] [(0x0010, 0xF0)]
    0x0F 0x00 0x00 0xFF 0x36 [(0x0010, 0xFF)] 0x0602 5 false = true := by decide

theorem test_tsx_V24 :
    check { start .cmos with pc := 0x0600, x := 0x01, sp := 0xFF } [0xBA] []
    0x00 0xFF 0x00 0xFF 0xB4 [] 0x0601 2 false = true := by decide

theorem test_txa_V22 :
    check { start .nmos with pc := 0x0600, ac := 0xFF, x := 0x7F, sr := Flags.unpack 0xB4 } [0x8A] []
    0x7F 0x7F 0x00 0xFF 0x34 [] 0x0601 2 false = true := by decide

theorem test_txs_V25 :
    check { start .cmos with pc := 0x0600, x := 0x00, sp := 0xFF, sr := Flags.unpack 0x34 } [0x9A] []
    0x00 0x00 0x00 0x00 0x34 [] 0x0601 2 false = true := by decide

theorem test_tya_V23 :
    check { start .nmos with pc := 0x0600, ac := 0x11, y := 0x00 } [0x98] []
    0x00 0x00 0x00 0xFF 0x36 [] 0x0601 2 false = true := by decide

/-! ### A witness for the hypotheses of every statement that has some -/

/-- A state other than that after reset. -/
def busy : State :=
  { variant := .nmos, pc := 0xFFFF, ac := 0x12, x := 0xFF, y := 0x34, sp := 0x00, sr := Flags.unpack 0xC3, cyc := 9
    mem := [(0x0000, 0x02), (0x0105, 0xAA), (0xFFFF, 0xA9)]
    out := some { cycles := 2, invalid := false, opcode := .nop, mode := .imp } }

theorem witness_round_trip_common : (Instr.lda (.mem (.izy 0xFF))).wellFormed .nmos = true := by decide
theorem witness_round_trip_addition : (Instr.jmp (.iax 0xFFFF)).wellFormed .cmos = true := by decide
theorem witness_round_trip_invalid : (Instr.invalid 0x80).wellFormed .nmos = true := by decide

theorem witness_map_row_both :
    ∃ r ∈ Claim.opcodeMap, r.code = 0x6C ∧ (r.both || Variant.nmos == .cmos) = true := by decide
theorem witness_map_row_addition :
    ∃ r ∈ Claim.opcodeMap, r.code = 0x7C ∧ (r.both || Variant.cmos == .cmos) = true := by decide
theorem witness_map_none_nmos : Claim.mapped .nmos 0x7C = false := by decide
theorem witness_map_none_cmos : Claim.mapped .cmos 0xFF = false := by decide
theorem witness_common_byte : (decodeInstr .nmos 0xFE 0x00 0x00).opcode ≠ .invalid := by decide

theorem witness_step_decoded :
    decode busy.variant (busy.bytesFrom busy.pc 3) = .ok (.lda (.imm 0x02), [0x00]) := by decide
theorem witness_step_encoded :
    (Instr.lda (.imm 0x02)).wellFormed busy.variant = true ∧
      busy.bytesFrom busy.pc (Instr.lda (.imm 0x02)).length = encode (.lda (.imm 0x02)) := by decide
theorem witness_fetch_wraps : busy.pc = 0xFFFF := by decide

theorem witness_invariant : ∃ t, busy.inv = true ∧ step busy = .next t := ⟨_, by decide, rfl⟩
theorem witness_invariant_reset : ∃ t, State.reset.inv = true ∧ step State.reset = .next t := ⟨_, by decide, rfl⟩
theorem witness_reset_keeps_invariant : busy.inv = true := by decide
theorem witness_reset_vector :
    let other : State := { busy with ac := 0x00, cyc := 0, mem := [(0x0105, 0xAB)] }
    busy.variant = other.variant ∧ busy.read 0xFFFC = other.read 0xFFFC ∧ busy.read 0xFFFD = other.read 0xFFFD ∧
      busy ≠ other := by decide
theorem witness_reset_zero_memory :
    let other : State := { busy with variant := resetVariant, mem := [] }
    other.mem = [] ∧ other.variant = resetVariant ∧ other ≠ State.reset := by decide

theorem witness_load_program :
    let bytes : List Byte := [0x11, 0x22, 0x33]
    bytes.length ≤ 65536 ∧ 2 < bytes.length ∧ ∀ k < bytes.length, (0x0002 : Addr) ≠ 0xFFFF + BitVec.ofNat 16 k := by decide
theorem witness_load_program_longest :
    (List.replicate 65536 (0x11 : Byte)).length ≤ 65536 ∧ 65535 < (List.replicate 65536 (0x11 : Byte)).length := by
  constructor
  · rw [List.length_replicate]
  · rw [List.length_replicate]; omega
theorem witness_canonical :
    let m := Memory.write (Memory.write [] 5 0x01) 65535 0x02
    let n := Memory.write (Memory.write [] 65535 0x02) 5 0x01
    Memory.wf m = true ∧ Memory.wf n = true ∧ ∀ a < 65536, Memory.read m a = Memory.read n a :=
  ⟨by decide, by decide, fun _ _ => rfl⟩
theorem witness_push_at_bottom : busy.sp = 0x00 := by decide
theorem witness_pull_at_top : State.reset.sp = 0xFF := by decide

theorem witness_flag_writers :
    ∃ t, exec (.bit (.imm 0x01)) busy = .next t ∧ Claim.flagWriters busy.variant (.bit (.imm 0x01)) .n = false :=
  ⟨_, rfl, by decide⟩
theorem witness_flag_writers_brk_nmos :
    ∃ t, exec .brk busy = .next t ∧ Claim.flagWriters busy.variant .brk .d = false := ⟨_, rfl, by decide⟩
theorem witness_register_writers :
    ∃ t, exec (.asl (.mem (.zp 0x10))) busy = .next t ∧ Claim.acWriters (.asl (.mem (.zp 0x10))) = false ∧
      Claim.xWriters (.asl (.mem (.zp 0x10))) = false ∧ Claim.yWriters (.asl (.mem (.zp 0x10))) = false ∧
      Claim.spWriters (.asl (.mem (.zp 0x10))) = false := ⟨_, rfl, by decide⟩
theorem witness_stored_bytes :
    ∃ t, exec .brk busy = .next t ∧ (0x0101 : Addr) ∉ Claim.storesTo busy .brk ∧ (0x0100 : Addr) ∈ Claim.storesTo busy .brk ∧
      (0x01FF : Addr) ∈ Claim.storesTo busy .brk := ⟨_, rfl, by decide⟩
theorem witness_counter_and_record : ∃ t, step busy = .next t := ⟨_, rfl⟩
theorem witness_variants_agree_jmp : Claim.variantMatters busy (.jmp (.ind 0x10FE)) = false := by decide
theorem witness_variants_agree_adc : Claim.variantMatters busy (.adc (.imm 0x01)) = false := by decide
theorem witness_variants_agree_brk : Claim.variantMatters State.reset .brk = false := by decide

theorem witness_result_record :
    (Instr.bne 0x7F).wellFormed busy.variant = true ∧ (Instr.invalid 0x02).wellFormed busy.variant = true := by decide
theorem witness_zero_page : busy.x = 0xFF := by decide
theorem witness_bcd : Claim.isBcd 0x99 ∧ Claim.isBcd 0x00 := ⟨⟨by decide, by decide⟩, by decide, by decide⟩
theorem witness_branch_cost :
    (Instr.bpl 0x80).wellFormed busy.variant = true ∧ (Instr.bra 0x80).wellFormed State.reset.variant = true := by decide
theorem witness_invalid_byte : validCode .nmos 0x04 = false ∧ validCode .cmos 0xFF = false := by decide
theorem witness_other_byte_inc :
    (0x0005 : Addr) ≠ Claim.eaOf busy (.inc (.mem (.zpx 0x05))) (.zpx 0x05) ∧
      (0x0005 : Addr) ≠ Claim.eaOf busy (.dec (.mem (.zpx 0x05))) (.zpx 0x05) := by decide
theorem witness_other_byte_stack :
    (0x01FD : Addr) ≠ Claim.page1 busy.sp ∧ (0x01FD : Addr) ≠ Claim.page1 (busy.sp - 1) ∧
      (0x01FD : Addr) ≠ Claim.page1 (busy.sp - 2) := by decide

end Sys2Proof.Tests
end

/-! ## The two variants agree on the common instructions (R6)

`State.withVariant` changes the parameter and nothing else. Every operation the instructions are made of commutes with it, except
where the variant is read: the pointer of `JMP` at the end of a page (R126), decimal arithmetic (R182, R183) and the flags of `BRK`
(R290). From that, each shape of instruction answers the same under every variant, and `exec` by cases on the instruction. -/

namespace Sys2Proof.Machine

open Sys2Proof.Claim

/-- The same state under another value of the parameter. -/
def State.withVariant (s : State) (v : Variant) : State := { s with variant := v }

/-! ### Reads and writes commute with a change of variant -/

section
variable (s : State) (v : Variant)

@[simp] theorem State.ac_withVariant : (s.withVariant v).ac = s.ac := rfl
@[simp] theorem State.sr_withVariant : (s.withVariant v).sr = s.sr := rfl
@[simp] theorem State.read_withVariant (a : Addr) : (s.withVariant v).read a = s.read a := rfl
@[simp] theorem State.read16_withVariant (a : Addr) : (s.withVariant v).read16 a = s.read16 a := rfl
@[simp] theorem State.pullByte_withVariant : (s.withVariant v).pullByte = s.pullByte := rfl

@[simp] theorem State.getReg_withVariant (r : DataReg) : (s.withVariant v).getReg r = s.getReg r := by
  cases r <;> rfl

@[simp] theorem State.pastOperands_withVariant (i : Instr) :
    (s.withVariant v).pastOperands i = (s.pastOperands i).withVariant v := rfl

@[simp] theorem State.setPc_withVariant (w : Addr) : (s.withVariant v).setPc w = (s.setPc w).withVariant v := rfl
@[simp] theorem State.setAc_withVariant (b : Byte) : (s.withVariant v).setAc b = (s.setAc b).withVariant v := rfl
@[simp] theorem State.setSr_withVariant (f : Flags) : (s.withVariant v).setSr f = (s.setSr f).withVariant v := rfl

@[simp] theorem State.updateZeroNegative_withVariant (b : Byte) :
    (s.withVariant v).updateZeroNegative b = (s.updateZeroNegative b).withVariant v := rfl

@[simp] theorem State.putReg_withVariant (r : DataReg) (b : Byte) :
    (s.withVariant v).putReg r b = (s.putReg r b).withVariant v := by
  cases r <;> rfl

@[simp] theorem State.write_withVariant (a : Addr) (b : Byte) :
    (s.withVariant v).write a b = (s.write a b).withVariant v := rfl

@[simp] theorem State.push_withVariant (b : Byte) : (s.withVariant v).push b = (s.push b).withVariant v := rfl

@[simp] theorem State.pushAddr_withVariant (w : Addr) : (s.withVariant v).pushAddr w = (s.pushAddr w).withVariant v := rfl

@[simp] theorem State.pulled_withVariant : (s.withVariant v).pulled = s.pulled.withVariant v := rfl

end

/-! ### The pointer of `JMP` -/

/-- Inside a page the next address keeps the high byte (R126). -/
theorem cat_hi_lo_add_one {w : Addr} (h : w.toNat % 256 ≠ 255) : cat (hi w) (lo w + 1) = w + 1 := by
  apply BitVec.eq_of_toNat_eq
  rw [toNat_cat, toNat_hi, BitVec.toNat_add, BitVec.toNat_add, toNat_lo]
  have := w.isLt
  have hbyte : (1 : Byte).toNat = 1 := rfl
  have haddr : (1 : Addr).toNat = 1 := rfl
  rw [hbyte, haddr]
  omega

/-- Away from the end of a page both variants read the word at the pointer (R126). -/
theorem State.readPointer_eq_read16 (s : State) {w : Addr} (h : w.toNat % 256 ≠ 255) : s.readPointer w = s.read16 w := by
  unfold State.readPointer State.read16
  split
  · rw [cat_hi_lo_add_one h]
  · rfl

/-- The mode is not an indirect one whose pointer is the last byte of a page: its `EA` is the same under both variants. -/
def AvoidsPageEnd : AddrMode → Prop
  | .ind w => w.toNat % 256 ≠ 255
  | _ => True

theorem State.effectiveAddress_withVariant (s : State) (v : Variant) {a : AddrMode} (h : AvoidsPageEnd a) :
    (s.withVariant v).effectiveAddress a = s.effectiveAddress a := by
  cases a with
  | ind w =>
    calc (s.withVariant v).readPointer w = (s.withVariant v).read16 w := State.readPointer_eq_read16 _ h
      _ = s.read16 w := State.read16_withVariant s v w
      _ = s.readPointer w := (State.readPointer_eq_read16 s h).symm
  | _ => rfl

theorem avoidsPageEnd_accMem (m : AccMem) : AvoidsPageEnd m.addr := by cases m <;> trivial
theorem avoidsPageEnd_xMem (m : XMem) : AvoidsPageEnd m.addr := by cases m <;> trivial
theorem avoidsPageEnd_ldxMem (m : LdxMem) : AvoidsPageEnd m.addr := by cases m <;> trivial
theorem avoidsPageEnd_stxMem (m : StxMem) : AvoidsPageEnd m.addr := by cases m <;> trivial
theorem avoidsPageEnd_styMem (m : StyMem) : AvoidsPageEnd m.addr := by cases m <;> trivial
theorem avoidsPageEnd_zpAbs (m : ZpAbs) : AvoidsPageEnd m.addr := by cases m <;> trivial

/-- `JMP` indirect differs exactly at the last byte of a page (R126). -/
theorem variantMatters_jmp_ind (s : State) (w : Addr) :
    variantMatters s (.jmp (.ind w)) = (w.toNat % 256 == 255) := rfl

theorem avoidsPageEnd_jmpMem {s : State} {t : JmpMem} (h : variantMatters s (.jmp t) = false) : AvoidsPageEnd t.addr := by
  cases t with
  | ind w =>
    rw [variantMatters_jmp_ind] at h
    exact beq_eq_false_iff_ne.mp h
  | abs w => trivial
  | iax w => trivial

/-! ### Operands -/

section
variable {μ : Type} {f : μ → AddrMode} (hf : ∀ m, AvoidsPageEnd (f m)) (s : State) (v : Variant)
include hf

theorem State.sourceByte_withVariant (src : Src μ) :
    (s.withVariant v).sourceByte (src.resolve f) = s.sourceByte (src.resolve f) := by
  cases src with
  | imm b => rfl
  | mem m => exact congrArg s.read (s.effectiveAddress_withVariant v (hf m))

theorem State.targetByte_withVariant (dst : Rmw μ) :
    (s.withVariant v).targetByte (dst.resolve f) = s.targetByte (dst.resolve f) := by
  cases dst with
  | acc => rfl
  | mem m => exact congrArg s.read (s.effectiveAddress_withVariant v (hf m))

theorem State.writeTarget_withVariant (dst : Rmw μ) (b : Byte) :
    (s.withVariant v).writeTarget (dst.resolve f) b = (s.writeTarget (dst.resolve f) b).withVariant v := by
  cases dst with
  | acc => rfl
  | mem m => exact congrArg (fun ea => (s.write ea b).withVariant v) (s.effectiveAddress_withVariant v (hf m))

end

/-! ### Decimal mode -/

@[simp] theorem adcResult_binary (v : Variant) : adcResult v false = adcBin := rfl
@[simp] theorem sbcResult_binary (v : Variant) : sbcResult v false = sbcBin := rfl

/-- With `D` clear already, `BRK` has the same flags under both variants (R290). -/
theorem handlerFlags_binary (v : Variant) {f : Flags} (h : f.d = false) : handlerFlags v f = f.set .i true := by
  cases v with
  | nmos => rfl
  | cmos => simp [handlerFlags, Flags.set, h]

theorem State.enterHandler_withVariant {s : State} (v : Variant) (ret : Addr) (h : s.sr.d = false) :
    (s.withVariant v).enterHandler ret = (s.enterHandler ret).withVariant v := by
  simp [State.enterHandler, handlerFlags_binary _ h]

/-! ### The shapes of instruction -/

/-- Both answers are next states, equal but for the variant, which the second has at `v`, and for the counter and the record. -/
def SameButVariant (v : Variant) (p q : Result) : Prop :=
  ∃ t u, p = .next t ∧ q = .next u ∧ regs u = { regs t with variant := v } ∧ u.mem = t.mem

/-- Instructions end alike when their effects differ in the variant alone, whatever their cost. -/
theorem sameButVariant_complete {v : Variant} {i : Instr} {s s' t u : State} {k k' : Bool} (h : u = t.withVariant v) :
    SameButVariant v (complete i s k t) (complete i s' k' u) :=
  ⟨_, _, rfl, rfl, by rw [h]; rfl, by rw [h]; rfl⟩

section
variable {μ : Type} {f : μ → AddrMode} (hf : ∀ m, AvoidsPageEnd (f m)) (i : Instr) (s : State) (v : Variant)
include hf

theorem loadReg_sameButVariant (r : DataReg) (src : Src μ) :
    SameButVariant v (loadReg i r (src.resolve f) s) (loadReg i r (src.resolve f) (s.withVariant v)) :=
  sameButVariant_complete (by simp [State.sourceByte_withVariant hf])

theorem logicInto_sameButVariant (g : Byte → Byte → Byte) (src : Src μ) :
    SameButVariant v (logicInto i g (src.resolve f) s) (logicInto i g (src.resolve f) (s.withVariant v)) :=
  sameButVariant_complete (by simp [State.sourceByte_withVariant hf])

theorem addInto_sameButVariant (g : Byte → Byte → Bool → AluResult) (src : Src μ) :
    SameButVariant v (addInto i g (src.resolve f) s) (addInto i g (src.resolve f) (s.withVariant v)) :=
  sameButVariant_complete (by simp [State.sourceByte_withVariant hf])

theorem compareReg_sameButVariant (r : DataReg) (src : Src μ) :
    SameButVariant v (compareReg i r (src.resolve f) s) (compareReg i r (src.resolve f) (s.withVariant v)) :=
  sameButVariant_complete (by simp [State.sourceByte_withVariant hf])

theorem addToTarget_sameButVariant (delta : Byte) (dst : Rmw μ) :
    SameButVariant v (addToTarget i delta (dst.resolve f) s) (addToTarget i delta (dst.resolve f) (s.withVariant v)) :=
  sameButVariant_complete (by simp [State.targetByte_withVariant hf, State.writeTarget_withVariant hf])

theorem shiftTarget_sameButVariant (g : Byte → Bool → ShiftResult) (dst : Rmw μ) :
    SameButVariant v (shiftTarget i g (dst.resolve f) s) (shiftTarget i g (dst.resolve f) (s.withVariant v)) :=
  sameButVariant_complete (by simp [State.targetByte_withVariant hf, State.writeTarget_withVariant hf])

end

section
variable (i : Instr) (s : State) (v : Variant)

theorem storeByte_sameButVariant (b : Byte) {a : AddrMode} (h : AvoidsPageEnd a) :
    SameButVariant v (storeByte i b a s) (storeByte i b a (s.withVariant v)) :=
  sameButVariant_complete (by simp [State.effectiveAddress_withVariant _ _ h])

theorem testAndWrite_sameButVariant (g : Byte → Byte → Byte) {a : AddrMode} (h : AvoidsPageEnd a) :
    SameButVariant v (testAndWrite i g a s) (testAndWrite i g a (s.withVariant v)) :=
  sameButVariant_complete (by simp [State.effectiveAddress_withVariant _ _ h])

theorem transfer_sameButVariant (r : DataReg) (b : Byte) :
    SameButVariant v (transfer i r b s) (transfer i r b (s.withVariant v)) :=
  sameButVariant_complete (by simp)

theorem addToReg_sameButVariant (delta : Byte) (r : DataReg) :
    SameButVariant v (addToReg i delta r s) (addToReg i delta r (s.withVariant v)) :=
  sameButVariant_complete (by simp)

theorem branch_sameButVariant (d : Byte) (cond : Bool) :
    SameButVariant v (branch i d cond s) (branch i d cond (s.withVariant v)) :=
  sameButVariant_complete (by cases cond <;> rfl)

theorem pushByte_sameButVariant (b : Byte) : SameButVariant v (pushByte i b s) (pushByte i b (s.withVariant v)) :=
  sameButVariant_complete (by simp)

theorem pullInto_sameButVariant (r : DataReg) : SameButVariant v (pullInto i r s) (pullInto i r (s.withVariant v)) :=
  sameButVariant_complete (by simp)

theorem writeFlag_sameButVariant (g : Flag) (val : Bool) :
    SameButVariant v (writeFlag i g val s) (writeFlag i g val (s.withVariant v)) :=
  sameButVariant_complete (by simp)

end

/-! ### Instructions whose variant is read, or with a shape of their own -/

section
variable {s : State} (v : Variant)

theorem execAdc_sameButVariant (src : Src AccMem) (h : s.sr.d = false) :
    SameButVariant v (execAdc src s) (execAdc src (s.withVariant v)) := by
  simpa [execAdc, h] using addInto_sameButVariant avoidsPageEnd_accMem (.adc src) s v adcBin src

theorem execSbc_sameButVariant (src : Src AccMem) (h : s.sr.d = false) :
    SameButVariant v (execSbc src s) (execSbc src (s.withVariant v)) := by
  simpa [execSbc, h] using addInto_sameButVariant avoidsPageEnd_accMem (.sbc src) s v sbcBin src

theorem execBrk_sameButVariant (h : s.sr.d = false) : SameButVariant v (execBrk s) (execBrk (s.withVariant v)) :=
  sameButVariant_complete (State.enterHandler_withVariant (s := s.pastOperands .brk) v (s.pc + 2) h)

theorem execJmp_sameButVariant (t : JmpMem) (h : variantMatters s (.jmp t) = false) :
    SameButVariant v (execJmp t s) (execJmp t (s.withVariant v)) :=
  sameButVariant_complete (by simp [State.effectiveAddress_withVariant _ _ (avoidsPageEnd_jmpMem h)])

theorem execBit_sameButVariant (src : Src XMem) : SameButVariant v (execBit src s) (execBit src (s.withVariant v)) :=
  sameButVariant_complete (by simp [State.sourceByte_withVariant avoidsPageEnd_xMem])

end

/-- Where the variant is not said to matter, every instruction has the same registers, flags and memory under any variant (R6). -/
theorem exec_sameButVariant (i : Instr) (s : State) (v : Variant) (h : variantMatters s i = false) :
    SameButVariant v (exec i s) (exec i (s.withVariant v)) := by
  cases i with
  | adc src => exact execAdc_sameButVariant v src h
  | sbc src => exact execSbc_sameButVariant v src h
  | brk => exact execBrk_sameButVariant v h
  | jmp t => exact execJmp_sameButVariant v t h
  | bit src => exact execBit_sameButVariant v src
  | and src | eor src | ora src => exact logicInto_sameButVariant avoidsPageEnd_accMem _ s v _ src
  | cmp src => exact compareReg_sameButVariant avoidsPageEnd_accMem _ s v .ac src
  | cpx src | cpy src => exact compareReg_sameButVariant avoidsPageEnd_zpAbs _ s v _ src
  | lda src => exact loadReg_sameButVariant avoidsPageEnd_accMem _ s v .ac src
  | ldx src => exact loadReg_sameButVariant avoidsPageEnd_ldxMem _ s v .x src
  | ldy src => exact loadReg_sameButVariant avoidsPageEnd_xMem _ s v .y src
  | sta m => exact storeByte_sameButVariant _ s v _ (avoidsPageEnd_accMem m)
  | stx m => exact storeByte_sameButVariant _ s v _ (avoidsPageEnd_stxMem m)
  | sty m => exact storeByte_sameButVariant _ s v _ (avoidsPageEnd_styMem m)
  | stz m => exact storeByte_sameButVariant _ s v _ (avoidsPageEnd_xMem m)
  | trb m => exact testAndWrite_sameButVariant _ s v (fun b a => b &&& (a ^^^ 0xFF)) (avoidsPageEnd_zpAbs m)
  | tsb m => exact testAndWrite_sameButVariant _ s v _ (avoidsPageEnd_zpAbs m)
  | inc dst | dec dst => exact addToTarget_sameButVariant avoidsPageEnd_xMem _ s v _ dst
  | asl dst => exact shiftTarget_sameButVariant avoidsPageEnd_xMem (.asl dst) s v (fun b _ => aslByte b) dst
  | lsr dst => exact shiftTarget_sameButVariant avoidsPageEnd_xMem (.lsr dst) s v (fun b _ => lsrByte b) dst
  | rol dst | ror dst => exact shiftTarget_sameButVariant avoidsPageEnd_xMem _ s v _ dst
  | inx | iny | dex | dey => exact addToReg_sameButVariant _ s v _ _
  | bcc d | bcs d | beq d | bmi d | bne d | bpl d | bra d | bvc d | bvs d => exact branch_sameButVariant _ s v d _
  | tax | tay | tsx | txa | tya => exact transfer_sameButVariant _ s v _ _
  | pha | php | phx | phy => exact pushByte_sameButVariant _ s v _
  | pla | plx | ply => exact pullInto_sameButVariant _ s v _
  | clc | cld | cli | clv | sec | sed | sei => exact writeFlag_sameButVariant _ s v _ _
  | txs | plp | rti | rts | jsr _ | nop | invalid _ => exact sameButVariant_complete rfl

/-- Settles O25: `exec` under `CMOS` against `exec` under `NMOS`, by `exec_sameButVariant`. -/
theorem variantsAgreeOnTheCommonInstructions : Obligations.VariantsAgreeOnTheCommonInstructions := by
  intro i s h
  have hn : variantMatters (s.withVariant .nmos) i = false := h
  obtain ⟨t, u, ht, hu, hregs, hmem⟩ := exec_sameButVariant i (s.withVariant .nmos) .cmos hn
  exact ⟨t, u, ht, hu, hregs.symm, fun a => congrArg (Memory.read · a.toNat) hmem.symm⟩

end Sys2Proof.Machine

/-! ## Canonical memory, the stack and the packed status byte (R29 to R34, R40, R41, R44) -/

namespace Sys2Proof.Machine

open Sys2Proof.Claim

/-! ### The canonical form is unique -/

theorem Memory.wf_cons {k : Nat} {v : Byte} {m : Memory} :
    Memory.wf ((k, v) :: m) = true ↔ k < 65536 ∧ v ≠ 0 ∧ Memory.above k m = true ∧ Memory.wf m = true := by
  simp [Memory.wf, and_assoc]

@[simp] theorem Memory.read_cons_self (k : Nat) (v : Byte) (m : Memory) : Memory.read ((k, v) :: m) k = v := if_pos rfl

theorem Memory.read_cons_other {k a : Nat} (v : Byte) (m : Memory) (h : k ≠ a) :
    Memory.read ((k, v) :: m) a = Memory.read m a := if_neg h

/-- Below its first entry a memory with rising addresses is zero. -/
theorem Memory.read_eq_zero_of_above {m : Memory} {k a : Nat} (h : Memory.above k m = true) (ha : a ≤ k) :
    Memory.read m a = 0 := by
  induction m with
  | nil => rfl
  | cons cell rest ih =>
    simp only [Memory.above, List.all_cons, Bool.and_eq_true, decide_eq_true_eq] at h ih
    obtain ⟨hcell, hrest⟩ := h
    rw [Memory.read_cons_other _ _ (by omega), ih hrest]

/-- A memory cannot have its first entry above an address at which it reads like a nonzero byte. -/
theorem Memory.head_le_of_read_eq {k j : Nat} {v w : Byte} {m n : Memory} (hv : v ≠ 0) (hn : Memory.above j n = true)
    (h : Memory.read ((k, v) :: m) k = Memory.read ((j, w) :: n) k) : j ≤ k := by
  by_contra hlt
  rw [Memory.read_cons_self, Memory.read_cons_other _ _ (by omega), Memory.read_eq_zero_of_above hn (by omega)] at h
  exact hv h

/-- Settles O17, by induction on the first memory: both start at the same address with the same byte, and both rests are 0
there. -/
theorem canonicalMemoriesThatReadAlikeAreEqual : Obligations.CanonicalMemoriesThatReadAlikeAreEqual := by
  intro m
  induction m with
  | nil =>
    rintro (_ | ⟨⟨j, w⟩, n⟩) - hn h
    · rfl
    · obtain ⟨hj, hw, -, -⟩ := Memory.wf_cons.mp hn
      exact absurd ((Memory.read_cons_self j w n).symm.trans (h j hj).symm) hw
  | cons cell m ih =>
    obtain ⟨k, v⟩ := cell
    rintro (_ | ⟨⟨j, w⟩, n⟩) hm hn h
    · obtain ⟨hk, hv, -, -⟩ := Memory.wf_cons.mp hm
      exact absurd ((Memory.read_cons_self k v m).symm.trans (h k hk)) hv
    · obtain ⟨hk, hv, hkm, hmwf⟩ := Memory.wf_cons.mp hm
      obtain ⟨hj, hw, hjn, hnwf⟩ := Memory.wf_cons.mp hn
      obtain rfl : k = j :=
        Nat.le_antisymm (Memory.head_le_of_read_eq hw hkm (h j hj).symm) (Memory.head_le_of_read_eq hv hjn (h k hk))
      obtain rfl : v = w := by simpa using h k hk
      have rests : ∀ a < 65536, Memory.read m a = Memory.read n a := by
        intro a ha
        by_cases hka : k = a
        · rw [Memory.read_eq_zero_of_above hkm hka.ge, Memory.read_eq_zero_of_above hjn hka.ge]
        · simpa only [Memory.read_cons_other _ _ hka] using h a ha
      rw [ih n hmwf hnwf rests]

/-! ### The stack -/

theorem page1_eq_stackAddr (p : Byte) : page1 p = stackAddr p := by
  apply BitVec.eq_of_toNat_eq
  rw [toNat_stackAddr, page1, BitVec.toNat_ofNat]
  have := p.isLt
  omega

theorem ofInt_pred_eq_sub_one (p : Byte) : BitVec.ofInt 8 (p.toNat - 1) = p - 1 := by
  apply BitVec.eq_of_toNat_eq
  rw [BitVec.toNat_ofInt, BitVec.toNat_sub]
  have := p.isLt
  have hone : (1 : Byte).toNat = 1 := rfl
  omega

theorem ofNat_succ_eq_add_one (p : Byte) : BitVec.ofNat 8 (p.toNat + 1) = p + 1 := by
  rw [BitVec.ofNat_add]
  simp

/-- Settles O18, from what a push and a pull are (R40, R41) and from the stack address as a number. -/
theorem pushAndPullWorkTheStackPage : Obligations.PushAndPullWorkTheStackPage := by
  unfold Obligations.PushAndPullWorkTheStackPage
  simp only [page1_eq_stackAddr, ofInt_pred_eq_sub_one, ofNat_succ_eq_add_one, toNat_stackAddr]
  refine ⟨fun s v => ⟨rfl, State.read_push s v, ?_, ?_, State.pullByte_push s v, ?_⟩,
    fun s => ⟨rfl, fun _ => rfl, rfl⟩, fun s v hsp => ?_, fun s hsp => ?_⟩
  · omega
  · have := s.sp.isLt
    omega
  · exact BitVec.sub_add_cancel _ _
  · rw [State.read_push, State.sp_push, hsp]
    exact ⟨if_pos rfl, rfl⟩
  · rw [State.pullByte, State.sp_pulled, hsp]
    exact ⟨rfl, rfl⟩

/-! ### The packed status byte -/

theorem bitNat_eq_bit (b : Bool) : bitNat b = bit b := rfl

theorem bit_le_one (b : Bool) : bit b ≤ 1 := by
  cases b <;> decide

theorem Flags.toNat_pack (f : Flags) :
    f.pack.toNat = 0x80 * bit f.n + 0x40 * bit f.v + 0x20 * bit f.u + 0x10 * bit f.b + 0x08 * bit f.d +
      0x04 * bit f.i + 0x02 * bit f.z + bit f.c := by
  have := bit_le_one f.n; have := bit_le_one f.v; have := bit_le_one f.u; have := bit_le_one f.b
  have := bit_le_one f.d; have := bit_le_one f.i; have := bit_le_one f.z; have := bit_le_one f.c
  simp only [Flags.pack, bitNat_eq_bit, BitVec.toNat_ofNat]
  omega

/-- The byte pushed is the packed byte of the flags with `U` and `B` set: the live ones are not read (R33, R35). -/
theorem Flags.pushed_eq_pack (f : Flags) : f.pushed = { f with u := true, b := true }.pack := by
  obtain ⟨n, v, u, b, d, i, z, c⟩ := f
  revert n v u b d i z c
  decide

theorem Flags.unpack_pack (f : Flags) : Flags.unpack f.pack = f := by
  obtain ⟨n, v, u, b, d, i, z, c⟩ := f
  revert n v u b d i z c
  decide

theorem Flags.pack_unpack (b : Byte) : (Flags.unpack b).pack = b := by
  revert b
  decide

theorem Flags.get_set (f : Flags) (g h : Flag) (val : Bool) : (f.set g val).get h = if h = g then val else f.get h := by
  cases g <;> cases h <;> rfl

theorem Flags.updateZeroNegative_eq_zn (f : Flags) (v : Byte) : f.updateZeroNegative v = zn f v := by
  have hz : (v == 0) = decide (v.toNat = 0) := by
    rw [Bool.eq_iff_iff]
    simp [BitVec.toNat_eq]
  have hn : bit7 v = decide (128 ≤ v.toNat) := BitVec.msb_eq_decide v
  rw [Flags.updateZeroNegative, hz, hn]
  rfl

/-- Settles O19, one lemma per clause. -/
theorem statusBytePacksAndUnpacks : Obligations.StatusBytePacksAndUnpacks := by
  refine ⟨fun f => ⟨f.toNat_pack, rfl, ?_, f.unpack_pack⟩, fun b => ⟨rfl, Flags.pack_unpack b⟩, Flags.get_set,
    Flags.updateZeroNegative_eq_zn⟩
  rw [Flags.pushed_eq_pack, Flags.toNat_pack]
  simp only [bit, if_true]

/-! ### Fetch and reset -/

/-- Settles O8: adding to `PC` is addition modulo 65536. -/
theorem fetchReadsConsecutiveAddressesModulo65536 : Obligations.FetchReadsConsecutiveAddressesModulo65536 := by
  refine ⟨fun s => ?_, fun s hpc => ?_⟩
  · have after (k : Addr) : (s.pc + k).toNat = (s.pc.toNat + k.toNat) % 65536 := BitVec.toNat_add _ _
    simp only [State.fetch, State.read, after]
    rfl
  · rw [State.fetch, hpc]
    rfl

/-- Settles O12: every field is written by `applyReset` itself; the vector is a little-endian word. -/
theorem resetEstablishesItsState : Obligations.ResetEstablishesItsState := by
  intro s
  refine ⟨rfl, rfl, rfl, rfl, ?_, rfl, rfl, rfl, fun _ => rfl, rfl, rfl⟩
  have vector : s.applyReset.pc = cat (s.read 0xFFFD) (s.read 0xFFFC) := rfl
  rw [vector, toNat_cat, Nat.mul_comm]

end Sys2Proof.Machine

/-! ## Who writes which register and which flag (R30, R45)

`Keeps` is the frame an instruction has to respect, given as the sets of writable registers and flags. Each operation the
instructions are made of keeps it when what it writes is in the sets; from that each shape of instruction does, and `exec` by
cases on the instruction, the sets being those of the register table and the flag table. -/

namespace Sys2Proof.Machine

open Sys2Proof.Claim

/-! ### Flags -/

/-- The flags outside the set `wFlag` are the same. -/
def Flags.Keep (wFlag : Flag → Bool) (f g : Flags) : Prop := ∀ x, wFlag x = false → g.get x = f.get x

namespace Flags.Keep

theorem refl (wFlag : Flag → Bool) (f : Flags) : Flags.Keep wFlag f f := fun _ _ => rfl

/-- Every flag is in the set. -/
theorem of_all {wFlag : Flag → Bool} (hfw : ∀ x, wFlag x = true) (f g : Flags) : Flags.Keep wFlag f g :=
  fun x hx => absurd (hfw x) (by simp [hx])

variable {wFlag : Flag → Bool} {f g : Flags} (h : Flags.Keep wFlag f g)
include h

theorem set {x : Flag} (hx : wFlag x = true) (val : Bool) : Flags.Keep wFlag f (g.set x val) := by
  intro y hy
  have hyx : y ≠ x := by
    rintro rfl
    exact absurd hx (by simp [hy])
  rw [Flags.get_set, if_neg hyx, h y hy]

theorem updateZeroNegative (hz : wFlag .z = true) (hn : wFlag .n = true) (b : Byte) :
    Flags.Keep wFlag f (g.updateZeroNegative b) := (h.set hz _).set hn _

theorem withAlu (hc : wFlag .c = true) (hv : wFlag .v = true) (hz : wFlag .z = true) (hn : wFlag .n = true) (q : AluResult) :
    Flags.Keep wFlag f (g.withAlu q) := (((h.set hc _).set hv _).set hz _).set hn _

theorem withCompare (hc : wFlag .c = true) (hz : wFlag .z = true) (hn : wFlag .n = true) (a b : Byte) :
    Flags.Keep wFlag f (g.withCompare a b) := ((h.set hc _).set hz _).set hn _

theorem withShift (hc : wFlag .c = true) (hz : wFlag .z = true) (hn : wFlag .n = true) (q : ShiftResult) :
    Flags.Keep wFlag f (g.withShift q) := (h.set hc _).updateZeroNegative hz hn _

theorem withBit {immediate : Bool} (hz : wFlag .z = true)
    (hnv : immediate = false → wFlag .n = true ∧ wFlag .v = true) (a b : Byte) :
    Flags.Keep wFlag f (g.withBit immediate a b) := by
  cases immediate with
  | true => exact h.set hz _
  | false =>
    obtain ⟨hn, hv⟩ := hnv rfl
    exact ((h.set hz _).set hn _).set hv _

theorem handlerFlags {v : Variant} (hi : wFlag .i = true) (hd : v = .cmos → wFlag .d = true) :
    Flags.Keep wFlag f (handlerFlags v g) := by
  cases v with
  | nmos => exact h.set hi _
  | cmos => exact (h.set hi _).set (hd rfl) _

end Flags.Keep

/-! ### States -/

/-- Outside the registers `wReg` and the flags `wFlag`, and outside `SP` unless `wSp`, the two states have the same registers and
flags; the variant is the same. -/
structure Keeps (wReg : DataReg → Bool) (wFlag : Flag → Bool) (wSp : Bool) (s t : State) : Prop where
  variant : t.variant = s.variant
  reg : ∀ r, wReg r = false → t.getReg r = s.getReg r
  flag : Flags.Keep wFlag s.sr t.sr
  sp : wSp = false → t.sp = s.sp

namespace Keeps

theorem refl (wReg : DataReg → Bool) (wFlag : Flag → Bool) (wSp : Bool) (s : State) : Keeps wReg wFlag wSp s s :=
  ⟨rfl, fun _ _ => rfl, fun _ _ => rfl, fun _ => rfl⟩

variable {wReg : DataReg → Bool} {wFlag : Flag → Bool} {wSp : Bool} {s t : State} (h : Keeps wReg wFlag wSp s t)
include h

theorem setPc (w : Addr) : Keeps wReg wFlag wSp s (t.setPc w) := ⟨h.variant, h.reg, h.flag, h.sp⟩

theorem pastOperands (i : Instr) : Keeps wReg wFlag wSp s (t.pastOperands i) := h.setPc _

theorem write (a : Addr) (b : Byte) : Keeps wReg wFlag wSp s (t.write a b) := ⟨h.variant, h.reg, h.flag, h.sp⟩

theorem setSr {g : Flags} (hg : Flags.Keep wFlag s.sr g) : Keeps wReg wFlag wSp s (t.setSr g) := ⟨h.variant, h.reg, hg, h.sp⟩

theorem setSp (hs : wSp = true) (b : Byte) : Keeps wReg wFlag wSp s (t.setSp b) :=
  ⟨h.variant, h.reg, h.flag, fun hs' => absurd hs (by simp [hs'])⟩

theorem setReg {r : DataReg} (hr : wReg r = true) (b : Byte) : Keeps wReg wFlag wSp s (t.setReg r b) where
  variant := by rw [State.variant_setReg, h.variant]
  reg q hq := by
    have hqr : q ≠ r := by
      rintro rfl
      exact absurd hr (by simp [hq])
    rw [State.getReg_setReg_other _ _ _ _ hqr, h.reg q hq]
  flag := by rw [State.sr_setReg]; exact h.flag
  sp hs := by rw [State.sp_setReg, h.sp hs]

theorem updateZeroNegative (hz : wFlag .z = true) (hn : wFlag .n = true) (b : Byte) :
    Keeps wReg wFlag wSp s (t.updateZeroNegative b) := h.setSr (h.flag.updateZeroNegative hz hn b)

theorem putReg {r : DataReg} (hr : wReg r = true) (hz : wFlag .z = true) (hn : wFlag .n = true) (b : Byte) :
    Keeps wReg wFlag wSp s (t.putReg r b) := (h.setReg hr b).updateZeroNegative hz hn b

theorem writeTarget {dst : Rmw AddrMode} (hac : dst = .acc → wReg .ac = true) (b : Byte) :
    Keeps wReg wFlag wSp s (t.writeTarget dst b) := by
  cases dst with
  | acc => exact h.setReg (hac rfl) b
  | mem a => exact h.write _ b

theorem push (hs : wSp = true) (b : Byte) : Keeps wReg wFlag wSp s (t.push b) := (h.write _ b).setSp hs _

theorem pushAddr (hs : wSp = true) (w : Addr) : Keeps wReg wFlag wSp s (t.pushAddr w) := (h.push hs _).push hs _

theorem pulled (hs : wSp = true) : Keeps wReg wFlag wSp s t.pulled := h.setSp hs _

theorem enterHandler (hs : wSp = true) (hi : wFlag .i = true) (hd : t.variant = .cmos → wFlag .d = true) (ret : Addr) :
    Keeps wReg wFlag wSp s (t.enterHandler ret) :=
  (((h.pushAddr hs ret).push hs _).setSr (h.flag.handlerFlags hi hd)).setPc _

theorem returnFromHandler (hs : wSp = true) (hf : ∀ x, wFlag x = true) : Keeps wReg wFlag wSp s t.returnFromHandler :=
  ((((h.pulled hs).setSr (Flags.Keep.of_all hf _ _)).pulled hs).pulled hs).setPc _

end Keeps

/-! ### The shapes of instruction -/

/-- Whatever next state is answered keeps the frame. -/
def KeepsNext (wReg : DataReg → Bool) (wFlag : Flag → Bool) (wSp : Bool) (s : State) (p : Result) : Prop :=
  ∀ t, p = .next t → Keeps wReg wFlag wSp s t

section
variable {wReg : DataReg → Bool} {wFlag : Flag → Bool} {wSp : Bool} {i : Instr} {s : State}

theorem complete_keeps {k : Bool} {t : State} (h : Keeps wReg wFlag wSp s t) : KeepsNext wReg wFlag wSp s (complete i s k t) := by
  intro u hu
  rw [complete_next] at hu
  subst hu
  exact ⟨h.variant, h.reg, h.flag, h.sp⟩

/-- What every instruction begins with: `PC` past the operands. -/
theorem pastOperands_keeps : Keeps wReg wFlag wSp s (s.pastOperands i) := (Keeps.refl wReg wFlag wSp s).pastOperands i

theorem loadReg_keeps {r : DataReg} {src : Src AddrMode} (hr : wReg r = true) (hz : wFlag .z = true) (hn : wFlag .n = true) :
    KeepsNext wReg wFlag wSp s (loadReg i r src s) := complete_keeps (pastOperands_keeps.putReg hr hz hn _)

theorem transfer_keeps {r : DataReg} {b : Byte} (hr : wReg r = true) (hz : wFlag .z = true) (hn : wFlag .n = true) :
    KeepsNext wReg wFlag wSp s (transfer i r b s) := complete_keeps (pastOperands_keeps.putReg hr hz hn _)

theorem addToReg_keeps {r : DataReg} {delta : Byte} (hr : wReg r = true) (hz : wFlag .z = true) (hn : wFlag .n = true) :
    KeepsNext wReg wFlag wSp s (addToReg i delta r s) := complete_keeps (pastOperands_keeps.putReg hr hz hn _)

theorem logicInto_keeps {f : Byte → Byte → Byte} {src : Src AddrMode} (hac : wReg .ac = true) (hz : wFlag .z = true)
    (hn : wFlag .n = true) : KeepsNext wReg wFlag wSp s (logicInto i f src s) :=
  complete_keeps (pastOperands_keeps.putReg hac hz hn _)

theorem addInto_keeps {f : Byte → Byte → Bool → AluResult} {src : Src AddrMode} (hac : wReg .ac = true)
    (hc : wFlag .c = true) (hv : wFlag .v = true) (hz : wFlag .z = true) (hn : wFlag .n = true) :
    KeepsNext wReg wFlag wSp s (addInto i f src s) :=
  complete_keeps ((pastOperands_keeps.setReg hac _).setSr ((Flags.Keep.refl wFlag s.sr).withAlu hc hv hz hn _))

theorem compareReg_keeps {r : DataReg} {src : Src AddrMode} (hc : wFlag .c = true) (hz : wFlag .z = true) (hn : wFlag .n = true) :
    KeepsNext wReg wFlag wSp s (compareReg i r src s) :=
  complete_keeps (pastOperands_keeps.setSr ((Flags.Keep.refl wFlag s.sr).withCompare hc hz hn _ _))

theorem storeByte_keeps {b : Byte} {a : AddrMode} : KeepsNext wReg wFlag wSp s (storeByte i b a s) :=
  complete_keeps (pastOperands_keeps.write _ _)

theorem testAndWrite_keeps {f : Byte → Byte → Byte} {a : AddrMode} (hz : wFlag .z = true) :
    KeepsNext wReg wFlag wSp s (testAndWrite i f a s) :=
  complete_keeps ((pastOperands_keeps.setSr ((Flags.Keep.refl wFlag s.sr).set hz _)).write _ _)

theorem addToTarget_keeps {delta : Byte} {dst : Rmw AddrMode} (hac : dst = .acc → wReg .ac = true) (hz : wFlag .z = true)
    (hn : wFlag .n = true) : KeepsNext wReg wFlag wSp s (addToTarget i delta dst s) :=
  complete_keeps ((pastOperands_keeps.writeTarget hac _).updateZeroNegative hz hn _)

theorem shiftTarget_keeps {f : Byte → Bool → ShiftResult} {dst : Rmw AddrMode} (hac : dst = .acc → wReg .ac = true)
    (hc : wFlag .c = true) (hz : wFlag .z = true) (hn : wFlag .n = true) : KeepsNext wReg wFlag wSp s (shiftTarget i f dst s) :=
  complete_keeps ((pastOperands_keeps.writeTarget hac _).setSr ((Flags.Keep.refl wFlag s.sr).withShift hc hz hn _))

theorem branch_keeps {d : Byte} {cond : Bool} : KeepsNext wReg wFlag wSp s (branch i d cond s) := by
  refine complete_keeps ?_
  cases cond with
  | true => exact pastOperands_keeps.setPc _
  | false => exact pastOperands_keeps

theorem pushByte_keeps {b : Byte} (hs : wSp = true) : KeepsNext wReg wFlag wSp s (pushByte i b s) :=
  complete_keeps (pastOperands_keeps.push hs b)

theorem pullInto_keeps {r : DataReg} (hs : wSp = true) (hr : wReg r = true) (hz : wFlag .z = true) (hn : wFlag .n = true) :
    KeepsNext wReg wFlag wSp s (pullInto i r s) := complete_keeps ((pastOperands_keeps.pulled hs).putReg hr hz hn _)

theorem writeFlag_keeps {x : Flag} {val : Bool} (hx : wFlag x = true) : KeepsNext wReg wFlag wSp s (writeFlag i x val s) :=
  complete_keeps (pastOperands_keeps.setSr ((Flags.Keep.refl wFlag s.sr).set hx val))

end

/-! ### Every instruction -/

/-- The writers of a data register (R45). -/
def regWriters (i : Instr) : DataReg → Bool
  | .ac => acWriters i
  | .x => xWriters i
  | .y => yWriters i

/-- `PLP` and `RTI` write all eight flags. -/
theorem flagWriters_of_unpack {i : Instr} (h : i.opcode = .plp ∨ i.opcode = .rti) (v : Variant) (x : Flag) :
    flagWriters v i x = true := by
  obtain h | h := h <;> cases x <;> simp [flagWriters, h]

/-- `BIT` in a memory mode writes `N` and `V` (R193). -/
theorem flagWriters_bit {src : Src XMem} (h : isImmediate (src.resolve XMem.addr) = false) (v : Variant) :
    flagWriters v (.bit src) .n = true ∧ flagWriters v (.bit src) .v = true := by
  cases src with
  | imm b => cases h
  | mem m => cases m <;> exact ⟨rfl, rfl⟩

/-- An instruction that writes `AC` in its accumulator form writes it where the resolved destination is the accumulator. -/
theorem acWriters_of_acc {mk : Rmw XMem → Instr} {dst : Rmw XMem} (hmk : acWriters (mk .acc) = true)
    (h : dst.resolve XMem.addr = .acc) : acWriters (mk dst) = true := by
  cases dst with
  | acc => exact hmk
  | mem m => cases h

theorem flagWriters_brk {v : Variant} (h : v = .cmos) : flagWriters v .brk .d = true := by
  subst h
  rfl

/-- Each instruction writes only the registers and flags whose tables list it (R30, R45). -/
theorem exec_keeps (i : Instr) (s : State) :
    KeepsNext (regWriters i) (flagWriters s.variant i) (spWriters i) s (exec i s) := by
  cases i with
  | lda _ | ldx _ | ldy _ => exact loadReg_keeps rfl rfl rfl
  | sta _ | stx _ | sty _ | stz _ => exact storeByte_keeps
  | tax | tay | tsx | txa | tya => exact transfer_keeps rfl rfl rfl
  | txs => exact complete_keeps (pastOperands_keeps.setSp rfl _)
  | adc _ | sbc _ => exact addInto_keeps rfl rfl rfl rfl rfl
  | and _ | eor _ | ora _ => exact logicInto_keeps rfl rfl rfl
  | cmp _ | cpx _ | cpy _ => exact compareReg_keeps rfl rfl rfl
  | bit src =>
    exact complete_keeps (pastOperands_keeps.setSr
      ((Flags.Keep.refl _ s.sr).withBit rfl (fun himm => flagWriters_bit himm s.variant) _ _))
  | trb _ => exact testAndWrite_keeps (f := fun b a => b &&& (a ^^^ 0xFF)) rfl
  | tsb _ => exact testAndWrite_keeps rfl
  | inc _ | dec _ => exact addToTarget_keeps (acWriters_of_acc rfl) rfl rfl
  | asl _ => exact shiftTarget_keeps (f := fun b _ => aslByte b) (acWriters_of_acc rfl) rfl rfl rfl
  | lsr _ => exact shiftTarget_keeps (f := fun b _ => lsrByte b) (acWriters_of_acc rfl) rfl rfl rfl
  | rol _ | ror _ => exact shiftTarget_keeps (acWriters_of_acc rfl) rfl rfl rfl
  | inx | iny | dex | dey => exact addToReg_keeps rfl rfl rfl
  | bcc _ | bcs _ | beq _ | bmi _ | bne _ | bpl _ | bra _ | bvc _ | bvs _ => exact branch_keeps
  | jmp _ => exact complete_keeps (pastOperands_keeps.setPc _)
  | jsr _ => exact complete_keeps ((pastOperands_keeps.pushAddr rfl _).setPc _)
  | rts => exact complete_keeps (((pastOperands_keeps.pulled rfl).pulled rfl).setPc _)
  | rti => exact complete_keeps (pastOperands_keeps.returnFromHandler rfl (flagWriters_of_unpack (.inr rfl) _))
  | pha | php | phx | phy => exact pushByte_keeps rfl
  | pla | plx | ply => exact pullInto_keeps rfl rfl rfl rfl
  | plp =>
    exact complete_keeps ((pastOperands_keeps.pulled rfl).setSr
      (Flags.Keep.of_all (flagWriters_of_unpack (.inl rfl) _) _ _))
  | clc | cld | cli | clv | sec | sed | sei => exact writeFlag_keeps rfl
  | brk => exact complete_keeps (pastOperands_keeps.enterHandler rfl rfl flagWriters_brk _)
  | nop | invalid _ => exact complete_keeps pastOperands_keeps

/-- Settles O20, the flags of `exec_keeps`. -/
theorem eachFlagChangesOnlyUnderItsWriters : Obligations.EachFlagChangesOnlyUnderItsWriters :=
  fun i s t f h hf => (exec_keeps i s t h).flag f hf

/-- Settles O21, the registers of `exec_keeps`. -/
theorem eachRegisterChangesOnlyUnderItsWriters : Obligations.EachRegisterChangesOnlyUnderItsWriters := by
  intro i s t h
  have keeps := exec_keeps i s t h
  exact ⟨keeps.reg .ac, keeps.reg .x, keeps.reg .y, keeps.sp, keeps.variant⟩

end Sys2Proof.Machine

/-! ## What no instruction reads: the live `U` and `B`, the counter, the record (R35, R37, R39)

`State.withUnread` replaces exactly these four. Every operation the instructions are made of commutes with it; only the pull of
the status byte (`PLP`, `RTI`) overwrites `U` and `B`. From that each shape of instruction answers the same but for the four, and
`exec` by cases on the instruction. -/

namespace Sys2Proof.Machine

open Sys2Proof.Claim

/-- The same flags with another live `U` and `B`. -/
def Flags.withUnread (f : Flags) (u b : Bool) : Flags := { f with u := u, b := b }

/-- The same state with another live `U` and `B`, another counter and another record. -/
def State.withUnread (s : State) (u b : Bool) (n : Nat) (r : Option StepResult) : State :=
  { s with sr := s.sr.withUnread u b, cyc := n, out := r }

/-! ### Flags commute -/

section
variable (f : Flags) (u b : Bool)

@[simp] theorem Flags.c_withUnread : (f.withUnread u b).c = f.c := rfl
@[simp] theorem Flags.d_withUnread : (f.withUnread u b).d = f.d := rfl

@[simp] theorem Flags.pushed_withUnread : (f.withUnread u b).pushed = f.pushed := by
  rw [Flags.pushed_eq_pack, Flags.pushed_eq_pack]
  rfl

theorem Flags.set_withUnread {x : Flag} (hu : x ≠ .u) (hb : x ≠ .b) (val : Bool) :
    (f.withUnread u b).set x val = (f.set x val).withUnread u b := by
  cases x with
  | u => exact absurd rfl hu
  | b => exact absurd rfl hb
  | _ => rfl

@[simp] theorem Flags.updateZeroNegative_withUnread (v : Byte) :
    (f.withUnread u b).updateZeroNegative v = (f.updateZeroNegative v).withUnread u b := rfl

@[simp] theorem Flags.withAlu_withUnread (q : AluResult) :
    (f.withUnread u b).withAlu q = (f.withAlu q).withUnread u b := rfl

@[simp] theorem Flags.withCompare_withUnread (v m : Byte) :
    (f.withUnread u b).withCompare v m = (f.withCompare v m).withUnread u b := rfl

@[simp] theorem Flags.withShift_withUnread (q : ShiftResult) :
    (f.withUnread u b).withShift q = (f.withShift q).withUnread u b := rfl

@[simp] theorem Flags.withBit_withUnread (immediate : Bool) (v m : Byte) :
    (f.withUnread u b).withBit immediate v m = (f.withBit immediate v m).withUnread u b := by
  cases immediate <;> rfl

@[simp] theorem handlerFlags_withUnread (v : Variant) :
    handlerFlags v (f.withUnread u b) = (handlerFlags v f).withUnread u b := by
  cases v <;> rfl

end

/-! ### Reads and writes commute -/

section
variable (s : State) (u b : Bool) (n : Nat) (r : Option StepResult)

@[simp] theorem State.variant_withUnread : (s.withUnread u b n r).variant = s.variant := rfl
@[simp] theorem State.ac_withUnread : (s.withUnread u b n r).ac = s.ac := rfl
@[simp] theorem State.sr_withUnread : (s.withUnread u b n r).sr = s.sr.withUnread u b := rfl
@[simp] theorem State.read_withUnread (a : Addr) : (s.withUnread u b n r).read a = s.read a := rfl
@[simp] theorem State.read16_withUnread (a : Addr) : (s.withUnread u b n r).read16 a = s.read16 a := rfl
@[simp] theorem State.pullByte_withUnread : (s.withUnread u b n r).pullByte = s.pullByte := rfl
@[simp] theorem State.fetch_withUnread : (s.withUnread u b n r).fetch = s.fetch := rfl

@[simp] theorem State.getReg_withUnread (q : DataReg) : (s.withUnread u b n r).getReg q = s.getReg q := by
  cases q <;> rfl

@[simp] theorem State.effectiveAddress_withUnread (a : AddrMode) :
    (s.withUnread u b n r).effectiveAddress a = s.effectiveAddress a := by
  cases a <;> rfl

@[simp] theorem State.sourceByte_withUnread (src : Src AddrMode) :
    (s.withUnread u b n r).sourceByte src = s.sourceByte src := by
  cases src with
  | imm v => rfl
  | mem a => exact congrArg s.read (s.effectiveAddress_withUnread u b n r a)

@[simp] theorem State.targetByte_withUnread (dst : Rmw AddrMode) :
    (s.withUnread u b n r).targetByte dst = s.targetByte dst := by
  cases dst with
  | acc => rfl
  | mem a => exact congrArg s.read (s.effectiveAddress_withUnread u b n r a)

@[simp] theorem State.pageCrossed_withUnread (o : Operand) :
    (s.withUnread u b n r).pageCrossed o = s.pageCrossed o := by
  cases o with
  | mem a => cases a <;> rfl
  | _ => rfl

@[simp] theorem State.pastOperands_withUnread (i : Instr) :
    (s.withUnread u b n r).pastOperands i = (s.pastOperands i).withUnread u b n r := rfl

@[simp] theorem State.cost_withUnread (i : Instr) (k : Bool) : (s.withUnread u b n r).cost i k = s.cost i k := by
  simp [State.cost]

@[simp] theorem State.setPc_withUnread (w : Addr) :
    (s.withUnread u b n r).setPc w = (s.setPc w).withUnread u b n r := rfl

@[simp] theorem State.setAc_withUnread (v : Byte) :
    (s.withUnread u b n r).setAc v = (s.setAc v).withUnread u b n r := rfl

@[simp] theorem State.setSr_withUnread (f : Flags) :
    (s.withUnread u b n r).setSr (f.withUnread u b) = (s.setSr f).withUnread u b n r := rfl

@[simp] theorem State.updateZeroNegative_withUnread (v : Byte) :
    (s.withUnread u b n r).updateZeroNegative v = (s.updateZeroNegative v).withUnread u b n r := rfl

@[simp] theorem State.putReg_withUnread (q : DataReg) (v : Byte) :
    (s.withUnread u b n r).putReg q v = (s.putReg q v).withUnread u b n r := by
  cases q <;> rfl

@[simp] theorem State.write_withUnread (a : Addr) (v : Byte) :
    (s.withUnread u b n r).write a v = (s.write a v).withUnread u b n r := rfl

@[simp] theorem State.writeTarget_withUnread (dst : Rmw AddrMode) (v : Byte) :
    (s.withUnread u b n r).writeTarget dst v = (s.writeTarget dst v).withUnread u b n r := by
  cases dst with
  | acc => rfl
  | mem a => exact congrArg (fun ea => (s.write ea v).withUnread u b n r) (s.effectiveAddress_withUnread u b n r a)

@[simp] theorem State.push_withUnread (v : Byte) :
    (s.withUnread u b n r).push v = (s.push v).withUnread u b n r := rfl

@[simp] theorem State.pushAddr_withUnread (w : Addr) :
    (s.withUnread u b n r).pushAddr w = (s.pushAddr w).withUnread u b n r := rfl

@[simp] theorem State.pulled_withUnread : (s.withUnread u b n r).pulled = s.pulled.withUnread u b n r := rfl

@[simp] theorem State.enterHandler_withUnread (ret : Addr) :
    (s.withUnread u b n r).enterHandler ret = (s.enterHandler ret).withUnread u b n r := by
  simp [State.enterHandler]

end

/-! ### Operations do not count cycles -/

@[simp] theorem State.cyc_putReg (s : State) (q : DataReg) (v : Byte) : (s.putReg q v).cyc = s.cyc := by
  simp [State.putReg]

@[simp] theorem State.cyc_writeTarget (s : State) (dst : Rmw AddrMode) (v : Byte) : (s.writeTarget dst v).cyc = s.cyc := by
  cases dst <;> rfl

/-! ### The shapes of instruction -/

/-- `p` answers a next state `c` cycles after `s`, and `q` answers the same one but for the counter, which is `n + c`, and, unless
the flags were restored from the stack, for `U` and `B`, which are `u` and `b`. -/
def SameButUnread (restored u b : Bool) (n : Nat) (s : State) (p q : Result) : Prop :=
  ∃ t c, p = .next t ∧ t.cyc = s.cyc + c ∧
    q = .next (if restored then { t with cyc := n + c } else t.withUnread u b (n + c) t.out)

section
variable {i : Instr} {s : State} {u b : Bool} {n : Nat} {r : Option StepResult}

/-- Instructions end alike when their effects differ in what is not read alone, because the cost does not read it either. -/
theorem sameButUnread_complete {t t' : State} {k : Bool} (hcyc : t.cyc = s.cyc) (h : t' = t.withUnread u b n r) :
    SameButUnread false u b n s (complete i s k t) (complete i (s.withUnread u b n r) k t') := by
  refine ⟨_, s.cost i k, rfl, ?_, ?_⟩
  · rw [cyc_completed, hcyc]
  · subst h
    rw [complete, completed, State.cost_withUnread]
    rfl

/-- The same where the effect writes the live `U` and `B`. -/
theorem sameButUnread_complete_restored {t : State} {k : Bool} (hcyc : t.cyc = s.cyc) :
    SameButUnread true u b n s (complete i s k t)
      (complete i (s.withUnread u b n r) k { t with cyc := n, out := r }) := by
  refine ⟨_, s.cost i k, rfl, ?_, ?_⟩
  · rw [cyc_completed, hcyc]
  · rw [complete, completed, State.cost_withUnread]
    rfl

theorem loadReg_sameButUnread (q : DataReg) (src : Src AddrMode) :
    SameButUnread false u b n s (loadReg i q src s) (loadReg i q src (s.withUnread u b n r)) :=
  sameButUnread_complete (by simp) (by simp)

theorem transfer_sameButUnread (q : DataReg) (v : Byte) :
    SameButUnread false u b n s (transfer i q v s) (transfer i q v (s.withUnread u b n r)) :=
  sameButUnread_complete (by simp) (by simp)

theorem addToReg_sameButUnread (delta : Byte) (q : DataReg) :
    SameButUnread false u b n s (addToReg i delta q s) (addToReg i delta q (s.withUnread u b n r)) :=
  sameButUnread_complete (by simp) (by simp)

theorem logicInto_sameButUnread (g : Byte → Byte → Byte) (src : Src AddrMode) :
    SameButUnread false u b n s (logicInto i g src s) (logicInto i g src (s.withUnread u b n r)) :=
  sameButUnread_complete (by simp) (by simp)

theorem addInto_sameButUnread (g : Byte → Byte → Bool → AluResult) (src : Src AddrMode) :
    SameButUnread false u b n s (addInto i g src s) (addInto i g src (s.withUnread u b n r)) :=
  sameButUnread_complete (by simp) (by simp)

theorem compareReg_sameButUnread (q : DataReg) (src : Src AddrMode) :
    SameButUnread false u b n s (compareReg i q src s) (compareReg i q src (s.withUnread u b n r)) :=
  sameButUnread_complete (by simp) (by simp)

theorem execBit_sameButUnread (src : Src XMem) :
    SameButUnread false u b n s (execBit src s) (execBit src (s.withUnread u b n r)) :=
  sameButUnread_complete (by simp) (by simp)

theorem storeByte_sameButUnread (v : Byte) (a : AddrMode) :
    SameButUnread false u b n s (storeByte i v a s) (storeByte i v a (s.withUnread u b n r)) :=
  sameButUnread_complete (by simp) (by simp)

theorem testAndWrite_sameButUnread (g : Byte → Byte → Byte) (a : AddrMode) :
    SameButUnread false u b n s (testAndWrite i g a s) (testAndWrite i g a (s.withUnread u b n r)) :=
  sameButUnread_complete (by simp) (by simp [Flags.set_withUnread])

theorem addToTarget_sameButUnread (delta : Byte) (dst : Rmw AddrMode) :
    SameButUnread false u b n s (addToTarget i delta dst s) (addToTarget i delta dst (s.withUnread u b n r)) :=
  sameButUnread_complete (by simp) (by simp)

theorem shiftTarget_sameButUnread (g : Byte → Bool → ShiftResult) (dst : Rmw AddrMode) :
    SameButUnread false u b n s (shiftTarget i g dst s) (shiftTarget i g dst (s.withUnread u b n r)) :=
  sameButUnread_complete (by simp) (by simp)

theorem branch_sameButUnread (d : Byte) (cond : Bool) :
    SameButUnread false u b n s (branch i d cond s) (branch i d cond (s.withUnread u b n r)) :=
  sameButUnread_complete (by cases cond <;> rfl) (by cases cond <;> rfl)

theorem execJmp_sameButUnread (m : JmpMem) :
    SameButUnread false u b n s (execJmp m s) (execJmp m (s.withUnread u b n r)) :=
  sameButUnread_complete (by simp) (by simp)

theorem pushByte_sameButUnread (v : Byte) :
    SameButUnread false u b n s (pushByte i v s) (pushByte i v (s.withUnread u b n r)) :=
  sameButUnread_complete (by simp) (by simp)

theorem execPhp_sameButUnread : SameButUnread false u b n s (execPhp s) (execPhp (s.withUnread u b n r)) := by
  simpa [execPhp] using pushByte_sameButUnread s.sr.pushed

theorem pullInto_sameButUnread (q : DataReg) :
    SameButUnread false u b n s (pullInto i q s) (pullInto i q (s.withUnread u b n r)) :=
  sameButUnread_complete (by simp) (by simp)

theorem writeFlag_sameButUnread {x : Flag} (hu : x ≠ .u) (hb : x ≠ .b) (val : Bool) :
    SameButUnread false u b n s (writeFlag i x val s) (writeFlag i x val (s.withUnread u b n r)) :=
  sameButUnread_complete (by simp) (by simp [Flags.set_withUnread _ _ _ hu hb])

theorem execBrk_sameButUnread : SameButUnread false u b n s (execBrk s) (execBrk (s.withUnread u b n r)) :=
  sameButUnread_complete (by simp) ((s.pastOperands .brk).enterHandler_withUnread u b n r (s.pc + 2))

end

/-! ### Every instruction -/

/-- No instruction reads the live `U` and `B`, the counter or the record (R35, R37, R39); the writers of `U`, which are those of
`B`, restore the flags from the stack. -/
theorem exec_sameButUnread (i : Instr) (s : State) (u b : Bool) (n : Nat) (r : Option StepResult) :
    SameButUnread (flagWriters s.variant i .u) u b n s (exec i s) (exec i (s.withUnread u b n r)) := by
  cases i with
  | lda _ | ldx _ | ldy _ => exact loadReg_sameButUnread _ _
  | sta _ | stx _ | sty _ | stz _ => exact storeByte_sameButUnread _ _
  | tax | tay | tsx | txa | tya => exact transfer_sameButUnread _ _
  | adc src => exact addInto_sameButUnread (adcResult s.variant s.sr.d) (src.resolve AccMem.addr)
  | sbc src => exact addInto_sameButUnread (sbcResult s.variant s.sr.d) (src.resolve AccMem.addr)
  | and _ | eor _ | ora _ => exact logicInto_sameButUnread _ _
  | cmp _ | cpx _ | cpy _ => exact compareReg_sameButUnread _ _
  | bit src => exact execBit_sameButUnread src
  | trb _ => exact testAndWrite_sameButUnread (fun b a => b &&& (a ^^^ 0xFF)) _
  | tsb _ => exact testAndWrite_sameButUnread _ _
  | inc _ | dec _ => exact addToTarget_sameButUnread _ _
  | asl _ => exact shiftTarget_sameButUnread (fun b _ => aslByte b) _
  | lsr _ => exact shiftTarget_sameButUnread (fun b _ => lsrByte b) _
  | rol _ | ror _ => exact shiftTarget_sameButUnread _ _
  | inx | iny | dex | dey => exact addToReg_sameButUnread _ _
  | bcc d | bcs d | beq d | bmi d | bne d | bpl d | bra d | bvc d | bvs d => exact branch_sameButUnread d _
  | jmp m => exact execJmp_sameButUnread m
  | pha | phx | phy => exact pushByte_sameButUnread _
  | php => exact execPhp_sameButUnread
  | pla | plx | ply => exact pullInto_sameButUnread _
  | clc | cld | cli | clv | sec | sed | sei => exact writeFlag_sameButUnread (by decide) (by decide) _
  | brk => exact execBrk_sameButUnread
  | txs | rts | jsr _ | nop | invalid _ => exact sameButUnread_complete rfl rfl
  | plp | rti => exact sameButUnread_complete_restored rfl

/-- The writers of the live `U` are the two instructions that restore the flags from the stack (R35). -/
theorem flagWriters_u {v : Variant} {i : Instr} : flagWriters v i .u = true ↔ i.opcode = .plp ∨ i.opcode = .rti := by
  simp [flagWriters]

/-- Settles O23, by `exec_sameButUnread` with the counter and the record as they are. -/
theorem liveIgnoredAndBreakAreNeverRead : Obligations.LiveIgnoredAndBreakAreNeverRead := by
  intro i s u b
  obtain ⟨t, c, ht, hcyc, hu⟩ := exec_sameButUnread i s u b s.cyc s.out
  simp only [flagWriters_u, ← hcyc] at hu
  exact ⟨t, ht, hu⟩

/-- A state whose `U` and `B` are the given ones already differs in the counter alone. -/
theorem State.withUnread_self {t : State} {u b : Bool} (hu : t.sr.u = u) (hb : t.sr.b = b) (n : Nat) :
    t.withUnread u b n t.out = { t with cyc := n } := by
  subst hu hb
  rfl

/-- Settles O24, by `exec_sameButUnread` with `U` and `B` as they are: an instruction that does not restore them leaves them
alone. -/
theorem counterAndRecordAreOutputsOnly : Obligations.CounterAndRecordAreOutputsOnly := by
  intro s t n r h
  obtain ⟨t', c, ht, hcyc, hstep⟩ := exec_sameButUnread s.fetch s s.sr.u s.sr.b n r
  obtain rfl : t' = t := by
    rw [step_eq, ht] at h
    injection h
  have hc : t'.cyc - s.cyc = c := by omega
  rw [hc]
  refine hstep.trans (congrArg _ ?_)
  split
  · rfl
  · next notRestored =>
    have hw := Bool.eq_false_iff.mpr notRestored
    have keeps := exec_keeps s.fetch s t' ht
    exact State.withUnread_self (keeps.flag .u hw) (keeps.flag .b hw) _

end Sys2Proof.Machine

/-! ## What the opcode table bounds (R81, R89, R351, R352)

The cycle columns and the penalty column of the table, read by opcode byte, and the modes that are relative. -/

namespace Sys2Proof

open Sys2Proof.Claim

/-! ### Base cycles and page penalty -/

/-- `base_cycles` of an opcode byte that is not `INVALID` (R89). -/
def codeCycles (v : Variant) (code : Byte) : Nat :=
  match v with
  | .cmos => cyclesTable.getD code.toNat 1
  | .nmos => (nmosCycles code).getD (cyclesTable.getD code.toNat 1)

/-- `page_penalty` of an opcode byte that is not `INVALID` (R89). -/
def codePenalty (v : Variant) (code : Byte) : Bool :=
  penaltyCodes.contains code || (v == .cmos && cmosPenaltyCodes.contains code)

theorem Instr.baseCycles_eq {i : Instr} (v : Variant) (h : i.opcode ≠ .invalid) :
    i.baseCycles v = codeCycles v i.opcodeByte := if_neg (by simpa using h)

theorem Instr.pagePenalty_eq {i : Instr} (v : Variant) (h : i.opcode ≠ .invalid) :
    i.pagePenalty v = codePenalty v i.opcodeByte := if_neg (by simpa using h)

theorem cyclesTable_bounds : ∀ n ∈ cyclesTable, 1 ≤ n ∧ n ≤ 7 := by
  delta cyclesTable
  simp only [List.forall_mem_append]
  decide

theorem getD_cyclesTable_bounds (k : Nat) : 1 ≤ cyclesTable.getD k 1 ∧ cyclesTable.getD k 1 ≤ 7 := by
  rw [List.getD_eq_getElem?_getD]
  cases h : cyclesTable[k]? with
  | none => decide
  | some n => exact cyclesTable_bounds n (List.mem_of_getElem? h)

theorem nmosCycles_eq_some {code : Byte} {n : Nat} (h : nmosCycles code = some n) : n = 5 ∨ n = 7 := by
  unfold nmosCycles at h
  split_ifs at h
  · exact .inl (Option.some.inj h).symm
  · exact .inr (Option.some.inj h).symm

theorem codeCycles_bounds (v : Variant) (code : Byte) : 1 ≤ codeCycles v code ∧ codeCycles v code ≤ 7 := by
  cases v with
  | cmos => exact getD_cyclesTable_bounds _
  | nmos =>
    cases h : nmosCycles code with
    | none =>
      rw [codeCycles, h]
      exact getD_cyclesTable_bounds _
    | some n =>
      rw [codeCycles, h, Option.getD_some]
      have := nmosCycles_eq_some h
      omega

/-- A row that pays for a page crossing leaves room for it (R352). -/
theorem codeCycles_le_of_penalty {v : Variant} {code : Byte} (h : codePenalty v code = true) : codeCycles v code ≤ 6 := by
  cases v with
  | nmos =>
    have rows : penaltyCodes.all (fun c => decide (codeCycles .nmos c ≤ 6)) = true := by decide
    exact of_decide_eq_true (List.all_eq_true.mp rows code (by simpa [codePenalty] using h))
  | cmos =>
    have rows : (penaltyCodes ++ cmosPenaltyCodes).all (fun c => decide (codeCycles .cmos c ≤ 6)) = true := by decide
    exact of_decide_eq_true (List.all_eq_true.mp rows code (by simpa [codePenalty] using h))

theorem Instr.eq_invalid_of_opcode {i : Instr} (h : i.opcode = .invalid) : ∃ b, i = .invalid b := by
  cases i with
  | invalid b => exact ⟨b, rfl⟩
  | _ => cases h

/-- Every row, `INVALID` included, costs 1 to 7 cycles, its page penalty counted (R84, R88). -/
theorem Instr.row_bounds (i : Instr) (v : Variant) :
    1 ≤ i.baseCycles v ∧ i.baseCycles v + bitNat (i.pagePenalty v) ≤ 7 := by
  by_cases h : i.opcode = .invalid
  · obtain ⟨b, rfl⟩ := Instr.eq_invalid_of_opcode h
    exact ⟨Nat.le_refl 1, Nat.le_add_left 1 6⟩
  · rw [Instr.baseCycles_eq v h, Instr.pagePenalty_eq v h]
    obtain ⟨hpos, hle⟩ := codeCycles_bounds v i.opcodeByte
    refine ⟨hpos, ?_⟩
    cases hp : codePenalty v i.opcodeByte with
    | false => exact hle
    | true => exact Nat.succ_le_succ (codeCycles_le_of_penalty hp)

/-- The opcode bytes of `ADC` and `SBC` (R185, R186). -/
def arithCodes : List Byte :=
  [0x61, 0x65, 0x69, 0x6D, 0x71, 0x72, 0x75, 0x79, 0x7D, 0xE1, 0xE5, 0xE9, 0xED, 0xF1, 0xF2, 0xF5, 0xF9, 0xFD]

theorem Instr.opcodeByte_mem_arithCodes {i : Instr} (h : i.opcode = .adc ∨ i.opcode = .sbc) : i.opcodeByte ∈ arithCodes := by
  cases i with
  | adc src | sbc src =>
    cases src with
    | imm b => simp [Instr.opcodeByte, arithCodes]
    | mem m => cases m <;> simp [Instr.opcodeByte, AccMem.pick, arithCodes]
  | _ => simp [Instr.opcode] at h

/-- The rows of `ADC` and `SBC` leave room for the decimal cycle (R350). -/
theorem Instr.row_bound_arith {i : Instr} (v : Variant) (h : i.opcode = .adc ∨ i.opcode = .sbc) :
    i.baseCycles v + bitNat (i.pagePenalty v) ≤ 6 := by
  have rows : arithCodes.all (fun c => decide (codeCycles v c + bitNat (codePenalty v c) ≤ 6)) = true := by
    cases v <;> decide
  have valid : i.opcode ≠ .invalid := by
    intro e
    simp [e] at h
  rw [Instr.baseCycles_eq v valid, Instr.pagePenalty_eq v valid]
  exact of_decide_eq_true (List.all_eq_true.mp rows _ (Instr.opcodeByte_mem_arithCodes h))

/-- The rows of the branches (R351). -/
theorem Instr.row_branch {i : Instr} (v : Variant) (h : i.opcode ∈ branchClass) :
    i.baseCycles v = 2 ∧ i.pagePenalty v = false := by
  cases i with
  | bcc _ | bcs _ | beq _ | bmi _ | bne _ | bpl _ | bra _ | bvc _ | bvs _ => cases v <;> exact ⟨rfl, rfl⟩
  | _ => simp [Instr.opcode, branchClass] at h

/-! ### Only the branches are relative (R81) -/

theorem AccMem.mode_addr_ne_rel (m : AccMem) : m.addr.mode ≠ .rel := by cases m <;> nofun
theorem XMem.mode_addr_ne_rel (m : XMem) : m.addr.mode ≠ .rel := by cases m <;> nofun
theorem LdxMem.mode_addr_ne_rel (m : LdxMem) : m.addr.mode ≠ .rel := by cases m <;> nofun
theorem StxMem.mode_addr_ne_rel (m : StxMem) : m.addr.mode ≠ .rel := by cases m <;> nofun
theorem StyMem.mode_addr_ne_rel (m : StyMem) : m.addr.mode ≠ .rel := by cases m <;> nofun
theorem ZpAbs.mode_addr_ne_rel (m : ZpAbs) : m.addr.mode ≠ .rel := by cases m <;> nofun
theorem JmpMem.mode_addr_ne_rel (m : JmpMem) : m.addr.mode ≠ .rel := by cases m <;> nofun

section
variable {μ : Type} {f : μ → AddrMode} (hf : ∀ m, (f m).mode ≠ .rel)
include hf

theorem Src.mode_operand_ne_rel (src : Src μ) : (src.operand f).mode ≠ .rel := by
  cases src with
  | imm b => nofun
  | mem m => exact hf m

theorem Rmw.mode_operand_ne_rel (dst : Rmw μ) : (dst.operand f).mode ≠ .rel := by
  cases dst with
  | acc => nofun
  | mem m => exact hf m

end

theorem Instr.mode_ne_rel {i : Instr} (h : i.opcode ∉ branchClass) : i.mode ≠ .rel := by
  cases i with
  | adc src | and src | cmp src | eor src | lda src | ora src | sbc src =>
    exact Src.mode_operand_ne_rel AccMem.mode_addr_ne_rel src
  | bit src | ldy src => exact Src.mode_operand_ne_rel XMem.mode_addr_ne_rel src
  | ldx src => exact Src.mode_operand_ne_rel LdxMem.mode_addr_ne_rel src
  | cpx src | cpy src => exact Src.mode_operand_ne_rel ZpAbs.mode_addr_ne_rel src
  | asl dst | dec dst | inc dst | lsr dst | rol dst | ror dst => exact Rmw.mode_operand_ne_rel XMem.mode_addr_ne_rel dst
  | sta m => exact m.mode_addr_ne_rel
  | stx m => exact m.mode_addr_ne_rel
  | sty m => exact m.mode_addr_ne_rel
  | stz m => exact m.mode_addr_ne_rel
  | trb m | tsb m => exact m.mode_addr_ne_rel
  | jmp t => exact t.mode_addr_ne_rel
  | bcc _ | bcs _ | beq _ | bmi _ | bne _ | bpl _ | bra _ | bvc _ | bvs _ => simp [Instr.opcode, branchClass] at h
  | _ => nofun

end Sys2Proof

/-! ## The memory: words, the loader, what an instruction stores, the invariant (R44, R52 to R57, R67, R68, R112, R350)

`Stores` says that one memory comes from another by writes to given addresses; whatever comes so reads the same elsewhere and stays
canonical. One case analysis of `exec` (`exec_endsStoring`) finds the writes and the way every instruction ends; the frame of
memory and, with the bounds on the cost of a step, the invariant follow from it. -/

namespace Sys2Proof.Machine

open Sys2Proof.Claim

/-! ### Words in memory -/

/-- Settles O16: both forms are a high and a low byte put together, and adding 1 to a word of `n` bits is addition modulo `2 ^ n`. -/
theorem wordsInMemoryAreLittleEndian : Obligations.WordsInMemoryAreLittleEndian := by
  refine ⟨fun s a => ?_, fun s p => ?_⟩
  · have next : (a + 1).toNat = (a.toNat + 1) % 65536 := BitVec.toNat_add a 1
    rw [State.read16, toNat_cat, Nat.mul_comm, State.read, State.read, next]
  · have next : (p + 1).toNat = (p.toNat + 1) % 256 := BitVec.toNat_add p 1
    rw [State.read16zp, toNat_cat, Nat.mul_comm, State.read, State.read, toNat_zext16, toNat_zext16, next]

/-! ### The loader -/

theorem State.loadProgram_cons (s : State) (base : Addr) (b : Byte) (bytes : List Byte) :
    s.loadProgram base (b :: bytes) = (s.write base b).loadProgram (base + 1) bytes := rfl

/-- The address of byte `k + 1` of an image is that of byte `k` of its tail, which is loaded one higher. -/
theorem add_one_add_ofNat (base : Addr) (k : Nat) : base + 1 + BitVec.ofNat 16 k = base + BitVec.ofNat 16 (k + 1) := by
  rw [BitVec.add_assoc, BitVec.ofNat_add, BitVec.add_comm 1]
  rfl

/-- Fewer than 65536 addresses up, one is not back where it started. -/
theorem ne_add_ofNat (base : Addr) {k : Nat} (hpos : 0 < k) (hk : k < 65536) : base ≠ base + BitVec.ofNat 16 k := by
  intro h
  have hn := congrArg BitVec.toNat h
  rw [BitVec.toNat_add, BitVec.toNat_ofNat] at hn
  have := base.isLt
  omega

theorem State.read_loadProgram_other (s : State) (base : Addr) (bytes : List Byte) (a : Addr)
    (h : ∀ k < bytes.length, a ≠ base + BitVec.ofNat 16 k) : (s.loadProgram base bytes).read a = s.read a := by
  induction bytes generalizing s base with
  | nil => rfl
  | cons b rest ih =>
    have hbase : a ≠ base := by simpa using h 0 (by simp)
    have hrest : ∀ k < rest.length, a ≠ base + 1 + BitVec.ofNat 16 k := by
      intro k hk
      rw [add_one_add_ofNat]
      exact h (k + 1) (by simpa using hk)
    rw [State.loadProgram_cons, ih _ _ hrest, State.read_write_other s b hbase]

/-- An image that does not overwrite its own start keeps each byte it stores. -/
theorem State.read_loadProgram (s : State) (base : Addr) (bytes : List Byte) (hlen : bytes.length ≤ 65536) (k : Nat)
    (hk : k < bytes.length) : (s.loadProgram base bytes).read (base + BitVec.ofNat 16 k) = bytes[k] := by
  induction bytes generalizing s base k with
  | nil => exact absurd hk (Nat.not_lt_zero k)
  | cons b rest ih =>
    rw [List.length_cons] at hlen hk
    rw [State.loadProgram_cons]
    cases k with
    | zero =>
      have untouched : ∀ j < rest.length, base ≠ base + 1 + BitVec.ofNat 16 j := by
        intro j hj
        rw [add_one_add_ofNat]
        exact ne_add_ofNat base j.succ_pos (by omega)
      rw [BitVec.add_zero, State.read_loadProgram_other _ _ _ _ untouched, State.read_write_self]
      rfl
    | succ k =>
      rw [← add_one_add_ofNat, ih _ _ (by omega) k (by omega)]
      rfl

theorem State.loadProgram_keeps (s : State) (base : Addr) (bytes : List Byte) :
    regs (s.loadProgram base bytes) = regs s ∧ (s.loadProgram base bytes).cyc = s.cyc ∧
      (s.loadProgram base bytes).out = s.out := by
  induction bytes generalizing s base with
  | nil => exact ⟨rfl, rfl, rfl⟩
  | cons b rest ih => exact ih (s.write base b) (base + 1)

/-- Settles O15, by induction on the image. -/
theorem loadProgramStoresItsBytes : Obligations.LoadProgramStoresItsBytes :=
  ⟨fun s base bytes hlen => ⟨s.read_loadProgram base bytes hlen, s.read_loadProgram_other base bytes⟩,
    State.loadProgram_keeps, State.loadProgram_cons⟩

/-! ### Reset of the memory as created -/

theorem State.read_of_mem_nil {s : State} (h : s.mem = []) (a : Addr) : s.read a = 0 := by
  rw [State.read, h]
  rfl

/-- Settles O14: with nothing in memory the vector is `0x0000`, and the byte there is that of `BRK`. -/
theorem resetStateIsResetOfZeroMemory : Obligations.ResetStateIsResetOfZeroMemory := by
  refine ⟨fun s hmem hvariant => ?_, rfl, State.read_of_mem_nil rfl, rfl⟩
  have vector : s.read16 resetVector = 0x0000 := by
    rw [State.read16, State.read_of_mem_nil hmem, State.read_of_mem_nil hmem]
    rfl
  rw [State.applyReset, hmem, hvariant, vector]
  rfl

/-! ### Memories that differ by stores -/

@[simp] theorem State.mem_putReg (s : State) (r : DataReg) (v : Byte) : (s.putReg r v).mem = s.mem := by
  simp [State.putReg]

/-- Entering the handler stores what its three pushes store (R316). -/
theorem State.mem_enterHandler (s : State) (ret : Addr) :
    (s.enterHandler ret).mem = ((s.pushAddr ret).push s.sr.pushed).mem := by
  simp [State.enterHandler]

/-- The second memory comes from the first by writing bytes at addresses of the list. -/
inductive Stores (l : List Addr) (m : Memory) : Memory → Prop
  | none : Stores l m m
  | write {n : Memory} (h : Stores l m n) {a : Addr} (ha : a ∈ l) (v : Byte) : Stores l m (Memory.write n a.toNat v)

namespace Stores

variable {l : List Addr} {m : Memory}

theorem wf {n : Memory} (h : Stores l m n) (hm : Memory.wf m = true) : Memory.wf n = true := by
  induction h with
  | none => exact hm
  | write _ _ _ ih => exact Memory.wf_write ih (BitVec.isLt _)

theorem read {n : Memory} (h : Stores l m n) {b : Addr} (hb : b ∉ l) : Memory.read n b.toNat = Memory.read m b.toNat := by
  induction h with
  | none => rfl
  | @write n _ a ha v ih =>
    have hab : b.toNat ≠ a.toNat := fun e => hb (BitVec.eq_of_toNat_eq e ▸ ha)
    rw [Memory.read_write_other n v hab, ih]

variable {t : State} (h : Stores l m t.mem)
include h

theorem writeTarget {dst : Rmw AddrMode} (hdst : ∀ a, dst = .mem a → t.effectiveAddress a ∈ l) (v : Byte) :
    Stores l m (t.writeTarget dst v).mem := by
  cases dst with
  | acc => exact h
  | mem a => exact h.write (hdst a rfl) v

theorem push (ha : stackAddr t.sp ∈ l) (v : Byte) : Stores l m (t.push v).mem := h.write ha v

theorem pushAddr (hhigh : stackAddr t.sp ∈ l) (hlow : stackAddr (t.sp - 1) ∈ l) (w : Addr) : Stores l m (t.pushAddr w).mem :=
  Stores.push (t := t.push (hi w)) (h.push hhigh _) hlow _

theorem enterHandler (hhigh : stackAddr t.sp ∈ l) (hlow : stackAddr (t.sp - 1) ∈ l) (hstatus : stackAddr (t.sp - 1 - 1) ∈ l)
    (ret : Addr) : Stores l m (t.enterHandler ret).mem := by
  rw [State.mem_enterHandler]
  exact Stores.push (t := t.pushAddr ret) (h.pushAddr hhigh hlow ret) hstatus t.sr.pushed

end Stores

/-! ### The shapes of instruction -/

/-- `p` is the end of `i` executed from `s`, as a branch taken when `k`, with an effect that stores to addresses of `l` alone and
does not itself count cycles. -/
def EndsStoring (l : List Addr) (i : Instr) (s : State) (k : Bool) (p : Result) : Prop :=
  ∃ u, p = .next (completed i s k u) ∧ u.cyc = s.cyc ∧ Stores l s.mem u.mem

section
variable {l : List Addr} {i : Instr} {s : State}

/-- An effect that stores nothing. -/
theorem complete_endsStoring {k : Bool} {u : State} (hcyc : u.cyc = s.cyc) (hmem : u.mem = s.mem) :
    EndsStoring l i s k (complete i s k u) := ⟨u, rfl, hcyc, hmem ▸ .none⟩

/-- An effect that stores. -/
theorem complete_endsStoring_of_stores {k : Bool} {u : State} (hcyc : u.cyc = s.cyc) (h : Stores l s.mem u.mem) :
    EndsStoring l i s k (complete i s k u) := ⟨u, rfl, hcyc, h⟩

theorem loadReg_endsStoring {r : DataReg} {src : Src AddrMode} : EndsStoring l i s false (loadReg i r src s) :=
  complete_endsStoring (by simp) (by simp)

theorem transfer_endsStoring {r : DataReg} {v : Byte} : EndsStoring l i s false (transfer i r v s) :=
  complete_endsStoring (by simp) (by simp)

theorem addToReg_endsStoring {delta : Byte} {r : DataReg} : EndsStoring l i s false (addToReg i delta r s) :=
  complete_endsStoring (by simp) (by simp)

theorem logicInto_endsStoring {f : Byte → Byte → Byte} {src : Src AddrMode} :
    EndsStoring l i s false (logicInto i f src s) := complete_endsStoring (by simp) (by simp)

theorem pullInto_endsStoring {r : DataReg} : EndsStoring l i s false (pullInto i r s) :=
  complete_endsStoring (by simp) (by simp)

theorem addInto_endsStoring {f : Byte → Byte → Bool → AluResult} {src : Src AddrMode} :
    EndsStoring l i s false (addInto i f src s) := complete_endsStoring rfl rfl

theorem compareReg_endsStoring {r : DataReg} {src : Src AddrMode} : EndsStoring l i s false (compareReg i r src s) :=
  complete_endsStoring rfl rfl

theorem writeFlag_endsStoring {x : Flag} {val : Bool} : EndsStoring l i s false (writeFlag i x val s) :=
  complete_endsStoring rfl rfl

theorem branch_endsStoring {d : Byte} {cond : Bool} : EndsStoring l i s cond (branch i d cond s) :=
  complete_endsStoring (by cases cond <;> rfl) (by cases cond <;> rfl)

theorem storeByte_endsStoring {v : Byte} {a : AddrMode} : EndsStoring [eaOf s i a] i s false (storeByte i v a s) :=
  complete_endsStoring_of_stores rfl (Stores.none.write (List.mem_singleton_self _) v)

theorem testAndWrite_endsStoring {f : Byte → Byte → Byte} {a : AddrMode} :
    EndsStoring [eaOf s i a] i s false (testAndWrite i f a s) :=
  complete_endsStoring_of_stores rfl (Stores.none.write (List.mem_singleton_self _) _)

theorem addToTarget_endsStoring {delta : Byte} {dst : Rmw AddrMode} (hdst : ∀ a, dst = .mem a → eaOf s i a ∈ l) :
    EndsStoring l i s false (addToTarget i delta dst s) :=
  complete_endsStoring_of_stores (by simp) (Stores.writeTarget (t := s.pastOperands i) .none hdst _)

theorem shiftTarget_endsStoring {f : Byte → Bool → ShiftResult} {dst : Rmw AddrMode}
    (hdst : ∀ a, dst = .mem a → eaOf s i a ∈ l) : EndsStoring l i s false (shiftTarget i f dst s) :=
  complete_endsStoring_of_stores (by simp) (Stores.writeTarget (t := s.pastOperands i) .none hdst _)

theorem pushByte_endsStoring {v : Byte} : EndsStoring [page1 s.sp] i s false (pushByte i v s) :=
  complete_endsStoring_of_stores rfl
    (Stores.push (t := s.pastOperands i) .none (by simp [page1_eq_stackAddr]) v)

theorem execJsr_endsStoring {w : Addr} :
    EndsStoring [page1 s.sp, page1 (s.sp - 1)] (.jsr w) s false (execJsr w s) := by
  refine complete_endsStoring_of_stores (by simp) ?_
  rw [State.mem_setPc]
  exact Stores.pushAddr .none (by simp [page1_eq_stackAddr]) (by simp [page1_eq_stackAddr]) _

theorem execBrk_endsStoring :
    EndsStoring [page1 s.sp, page1 (s.sp - 1), page1 (s.sp - 2)] .brk s false (execBrk s) := by
  have third : s.sp - 1 - 1 = s.sp - 2 := BitVec.sub_sub s.sp 1 1
  have hstatus : stackAddr (s.sp - 1 - 1) ∈ [page1 s.sp, page1 (s.sp - 1), page1 (s.sp - 2)] := by
    rw [third, ← page1_eq_stackAddr]
    simp
  exact complete_endsStoring_of_stores (by simp)
    (Stores.enterHandler (t := s.pastOperands .brk) .none (by simp [page1_eq_stackAddr]) (by simp [page1_eq_stackAddr])
      hstatus (s.pc + 2))

end

/-! ### Every instruction -/

/-- An instruction that stores to `EA` in its memory forms stores to it where the resolved destination is in memory. -/
theorem eaOf_mem_storesTo {s : State} {mk : Rmw XMem → Instr} {dst : Rmw XMem}
    (hmk : ∀ m, eaOf s (mk (.mem m)) m.addr ∈ storesTo s (mk (.mem m))) (a : AddrMode) (h : dst.resolve XMem.addr = .mem a) :
    eaOf s (mk dst) a ∈ storesTo s (mk dst) := by
  cases dst with
  | acc => cases h
  | mem m =>
    cases h
    exact hmk m

/-- Every instruction ends in a next state (R110), having stored only to the addresses said (R67). -/
theorem exec_endsStoring (i : Instr) (s : State) : EndsStoring (storesTo s i) i s (taken s i) (exec i s) := by
  cases i with
  | lda _ | ldx _ | ldy _ => exact loadReg_endsStoring
  | sta _ | stx _ | sty _ | stz _ => exact storeByte_endsStoring
  | tax | tay | tsx | txa | tya => exact transfer_endsStoring
  | adc _ | sbc _ => exact addInto_endsStoring
  | and _ | eor _ | ora _ => exact logicInto_endsStoring
  | cmp _ | cpx _ | cpy _ => exact compareReg_endsStoring
  | trb _ => exact testAndWrite_endsStoring (f := fun b a => b &&& (a ^^^ 0xFF))
  | tsb _ => exact testAndWrite_endsStoring
  | inc _ | dec _ => exact addToTarget_endsStoring (eaOf_mem_storesTo fun _ => List.mem_singleton_self _)
  | asl _ =>
    exact shiftTarget_endsStoring (f := fun b _ => aslByte b) (eaOf_mem_storesTo fun _ => List.mem_singleton_self _)
  | lsr _ =>
    exact shiftTarget_endsStoring (f := fun b _ => lsrByte b) (eaOf_mem_storesTo fun _ => List.mem_singleton_self _)
  | rol _ | ror _ => exact shiftTarget_endsStoring (eaOf_mem_storesTo fun _ => List.mem_singleton_self _)
  | inx | iny | dex | dey => exact addToReg_endsStoring
  | bcc _ | bcs _ | beq _ | bmi _ | bne _ | bpl _ | bra _ | bvc _ | bvs _ => exact branch_endsStoring
  | jsr _ => exact execJsr_endsStoring
  | brk => exact execBrk_endsStoring
  | pha | php | phx | phy => exact pushByte_endsStoring
  | pla | plx | ply => exact pullInto_endsStoring
  | clc | cld | cli | clv | sec | sed | sei => exact writeFlag_endsStoring
  | bit _ | jmp _ | txs | plp | rti | rts | nop | invalid _ => exact complete_endsStoring rfl rfl

/-- Settles O22, by `exec_endsStoring`. -/
theorem onlyTheStoredBytesOfMemoryChange : Obligations.OnlyTheStoredBytesOfMemoryChange := by
  intro i s t a h ha
  obtain ⟨u, hu, -, hmem⟩ := exec_endsStoring i s
  obtain rfl : completed i s (taken s i) u = t := complete_next.mp (hu.symm.trans h)
  exact hmem.read ha

/-! ### The cost of a step -/

theorem bitNat_le_one (b : Bool) : bitNat b ≤ 1 := bit_le_one b

theorem bitNat_and_le (b c : Bool) : bitNat (b && c) ≤ bitNat b := by
  cases b <;> cases c <;> decide

/-- The cost with every addition an instruction can have at all (R350). -/
theorem cycleCost_le (v : Variant) (i : Instr) (crossed taken decimal : Bool) :
    cycleCost v i crossed taken decimal ≤
      i.baseCycles v + bitNat (i.pagePenalty v) + 2 * bitNat (i.mode == .rel) +
        bitNat (v == .cmos && (i.opcode == .adc || i.opcode == .sbc)) := by
  have page := bitNat_and_le (i.pagePenalty v) crossed
  have branch := bitNat_and_le (i.mode == .rel) taken
  have branchPage := bitNat_and_le (i.mode == .rel && taken) crossed
  have arith := bitNat_and_le (v == .cmos && (i.opcode == .adc || i.opcode == .sbc)) decimal
  rw [cycleCost]
  omega

/-- R350: of a branch the two additions fit, of `ADC` and `SBC` the decimal one, and no other form has either. -/
theorem cycleCost_le_seven (v : Variant) (i : Instr) (crossed taken decimal : Bool) :
    cycleCost v i crossed taken decimal ≤ 7 := by
  have worst := cycleCost_le v i crossed taken decimal
  have harith := bitNat_le_one (v == .cmos && (i.opcode == .adc || i.opcode == .sbc))
  by_cases hbranch : i.opcode ∈ branchClass
  · obtain ⟨hbase, hpage⟩ := Instr.row_branch v hbranch
    have hrel := bitNat_le_one (i.mode == .rel)
    have hnone : bitNat (i.pagePenalty v) = 0 := congrArg bitNat hpage
    omega
  · have hrel : bitNat (i.mode == .rel) = 0 := congrArg bitNat (beq_eq_false_iff_ne.mpr (Instr.mode_ne_rel hbranch))
    by_cases hop : i.opcode = .adc ∨ i.opcode = .sbc
    · have := Instr.row_bound_arith v hop
      omega
    · have hnone : bitNat (v == .cmos && (i.opcode == .adc || i.opcode == .sbc)) = 0 := by
        rw [not_or] at hop
        simp [hop, bitNat]
      have := (i.row_bounds v).2
      omega

theorem State.cost_bounds (s : State) (i : Instr) (k : Bool) : 1 ≤ s.cost i k ∧ s.cost i k ≤ 7 := by
  refine ⟨?_, cycleCost_le_seven _ _ _ _ _⟩
  have := (i.row_bounds s.variant).1
  rw [State.cost, cycleCost]
  omega

/-- `INVALID` costs 1 cycle (R292). -/
theorem State.cost_invalid (s : State) (b : Byte) (k : Bool) : s.cost (.invalid b) k = 1 := by
  simp [State.cost, cycleCost, Instr.baseCycles, Instr.pagePenalty, Instr.opcode, Instr.mode, Instr.operand, Operand.mode, bitNat]

/-! ### The invariant -/

/-- At the end of an instruction the record is legal (R112). -/
theorem inv_completed {i : Instr} {s u : State} {k : Bool} (hwf : Memory.wf u.mem = true) :
    (completed i s k u).inv = true := by
  obtain ⟨hpos, hle⟩ := s.cost_bounds i k
  have hinvalid : i.opcode ≠ .invalid ∨ i.mode = .imp ∧ s.cost i k = 1 := by
    by_cases h : i.opcode = .invalid
    · obtain ⟨b, rfl⟩ := Instr.eq_invalid_of_opcode h
      exact .inr ⟨rfl, s.cost_invalid b k⟩
    · exact .inl h
  simp [State.inv, completed, StepResult.legal, hwf, hpos, hle, hinvalid]

/-- Settles O10: the memory by `exec_endsStoring`, the record by the bounds on the cost. -/
theorem everyStepKeepsTheInvariant : Obligations.EveryStepKeepsTheInvariant := by
  intro s t hinv h
  obtain ⟨u, hu, -, hmem⟩ := exec_endsStoring s.fetch s
  obtain rfl : completed s.fetch s (taken s s.fetch) u = t := complete_next.mp (hu.symm.trans h)
  rw [State.inv, Bool.and_eq_true] at hinv
  exact inv_completed (hmem.wf hinv.1)

end Sys2Proof.Machine

/-! ## Decoding and encoding (R80 to R91)

The decoder's table is read three times, row by row: from the instruction form to its byte (`decodeInstr_opcodeByte`), from the
rows of the opcode map (`describes_decodeInstr_cmos`) and from the bytes outside the valid set
(`decodeInstr_of_validCode_eq_false`). That these rows and these bytes are all there are is `exists_row_or_validCode_eq_false`. -/

namespace Sys2Proof

open Sys2Proof.Claim Sys2Proof.Laws

/-! ### Operands from their bytes -/

/-- The operand of a mode whose operand bytes are `b1` and `b2`, the low byte first (R82). -/
def Mode.assemble (b1 b2 : Byte) : Mode → Operand
  | .imm => .imm b1
  | .zp => .mem (.zp b1)
  | .zpx => .mem (.zpx b1)
  | .zpy => .mem (.zpy b1)
  | .izx => .mem (.izx b1)
  | .izy => .mem (.izy b1)
  | .izp => .mem (.izp b1)
  | .abs => .mem (.abs (cat b2 b1))
  | .abx => .mem (.abx (cat b2 b1))
  | .aby => .mem (.aby (cat b2 b1))
  | .ind => .mem (.ind (cat b2 b1))
  | .iax => .mem (.iax (cat b2 b1))
  | .acc => .acc
  | .imp => .imp
  | .stk => .stk
  | .rel => .mem (.rel b1)

@[simp] theorem Mode.mode_assemble (b1 b2 : Byte) (m : Mode) : (m.assemble b1 b2).mode = m := by
  cases m <;> rfl

/-- The operand bytes are kept, as many as the mode has (R80, R82). -/
@[simp] theorem Mode.bytes_assemble (b1 b2 : Byte) (m : Mode) :
    (m.assemble b1 b2).bytes = [b1, b2].take (modeOperandBytes m) := by
  cases m with
  | abs | abx | aby | ind | iax => exact congrArg₂ (fun l h => [l, h]) (lo_cat b2 b1) (hi_cat b2 b1)
  | _ => rfl

theorem Mode.operandBytes_le_two (m : Mode) : modeOperandBytes m ≤ 2 := by
  cases m <;> decide

/-- An operand is assembled from its own bytes, whatever follows them. -/
theorem Operand.eq_assemble (o : Operand) (rest : List Byte) :
    o = o.mode.assemble ((o.bytes ++ rest).getD 0 0) ((o.bytes ++ rest).getD 1 0) := by
  cases o with
  | mem a =>
    cases a with
    | abs w | abx w | aby w | ind w | iax w =>
      simp [Operand.mode, AddrMode.mode, Operand.bytes, AddrMode.bytes, Mode.assemble]
    | _ => rfl
  | _ => rfl

/-! ### From the instruction to its byte and back -/

theorem Instr.wellFormed_eq {i : Instr} (v : Variant) (hi : i.opcode ≠ .invalid) :
    i.wellFormed v = (v == .cmos || !i.cmosOnly) := by
  cases i with
  | invalid b => exact absurd rfl hi
  | _ => rfl

/-- The row of each form, read from the decoder's table: a form of the `CMOS` additions decodes as one. -/
theorem decodeInstr_opcodeByte_eq_onlyCmos (v : Variant) {i : Instr} {b1 b2 : Byte} (hi : i.opcode ≠ .invalid)
    (h : i.operand = i.mode.assemble b1 b2) :
    decodeInstr v i.opcodeByte b1 b2 = bif i.cmosOnly then onlyCmos v i.opcodeByte i else i := by
  cases i with
  | adc src | and src | bit src | cmp src | cpx src | cpy src | eor src | lda src | ldx src | ldy src | ora src | sbc src =>
    cases src with
    | imm b => cases h; rfl
    | mem m => cases m <;> cases h <;> rfl
  | asl dst | dec dst | inc dst | lsr dst | rol dst | ror dst =>
    cases dst with
    | acc => rfl
    | mem m => cases m <;> cases h <;> rfl
  | jmp m | sta m | stx m | sty m | stz m | trb m | tsb m => cases m <;> cases h <;> rfl
  | invalid b => exact absurd rfl hi
  | _ => cases h; rfl

/-- The opcode byte of a form and its operand bytes decode to the form under every variant that has it (R86). -/
theorem decodeInstr_opcodeByte {v : Variant} {i : Instr} {b1 b2 : Byte} (hi : i.opcode ≠ .invalid)
    (hwf : i.wellFormed v = true) (h : i.operand = i.mode.assemble b1 b2) : decodeInstr v i.opcodeByte b1 b2 = i := by
  rw [decodeInstr_opcodeByte_eq_onlyCmos v hi h]
  rw [Instr.wellFormed_eq v hi] at hwf
  cases v with
  | cmos => cases i.cmosOnly <;> rfl
  | nmos => rw [show i.cmosOnly = false by simpa using hwf, cond_false]

/-! ### Bytes outside the valid set -/

theorem decodeInstr_of_mem_invalidCodes (v : Variant) {op : Byte} (h : op ∈ invalidCodes) (b1 b2 : Byte) :
    decodeInstr v op b1 b2 = .invalid op := by
  have table : ∀ op ∈ invalidCodes, decodeInstr v op b1 b2 = .invalid op := List.map_inj_left.mp rfl
  exact table op h

theorem decodeInstr_nmos_of_mem_cmosCodes {op : Byte} (h : op ∈ cmosCodes) (b1 b2 : Byte) :
    decodeInstr .nmos op b1 b2 = .invalid op := by
  have table : ∀ op ∈ cmosCodes, decodeInstr .nmos op b1 b2 = .invalid op := List.map_inj_left.mp rfl
  exact table op h

theorem decodeInstr_of_validCode_eq_false {v : Variant} {op : Byte} (h : validCode v op = false) (b1 b2 : Byte) :
    decodeInstr v op b1 b2 = .invalid op := by
  cases v with
  | cmos => exact decodeInstr_of_mem_invalidCodes .cmos (by simpa [validCode] using h) b1 b2
  | nmos =>
    obtain h | h : op ∈ invalidCodes ∨ op ∈ cmosCodes := by simpa [validCode, or_iff_not_imp_left] using h
    · exact decodeInstr_of_mem_invalidCodes .nmos h b1 b2
    · exact decodeInstr_nmos_of_mem_cmosCodes h b1 b2

/-! ### From the byte to its row of the map -/

/-- What an instruction shows of its row of the map, in one value: the table is compared by one equation per row. -/
def Instr.columns (i : Instr) : Opcode × Byte × Operand × Bool := (i.opcode, i.opcodeByte, i.operand, i.cmosOnly)

/-- The instruction is the one of the row with the operand bytes `b1` and `b2` (R84, R89). -/
structure Claim.Row.Describes (r : Row) (b1 b2 : Byte) (i : Instr) : Prop where
  opcode : i.opcode = r.op
  opcodeByte : i.opcodeByte = r.code
  operand : i.operand = r.mode.assemble b1 b2
  cmosOnly : i.cmosOnly = !r.both

theorem op_ne_invalid_of_mem_opcodeMap {r : Row} (hr : r ∈ opcodeMap) : r.op ≠ .invalid := by
  revert r
  delta opcodeMap
  simp only [List.forall_mem_append]
  and_intros <;> decide

namespace Claim.Row.Describes

variable {r : Row} {b1 b2 : Byte} {i : Instr}

theorem opcode_ne_invalid (h : r.Describes b1 b2 i) (hr : r ∈ opcodeMap) : i.opcode ≠ .invalid :=
  h.opcode ▸ op_ne_invalid_of_mem_opcodeMap hr

theorem mode (h : r.Describes b1 b2 i) : i.mode = r.mode := by
  rw [Instr.mode, h.operand, Mode.mode_assemble]

theorem wellFormed (h : r.Describes b1 b2 i) (hr : r ∈ opcodeMap) (v : Variant) :
    i.wellFormed v = (r.both || v == .cmos) := by
  rw [Instr.wellFormed_eq v (h.opcode_ne_invalid hr), h.cmosOnly, Bool.not_not, Bool.or_comm]

end Claim.Row.Describes

/-- Under `CMOS` the byte of a row decodes to the row: the decoder's table against the map, mnemonic by mnemonic (R89). -/
theorem describes_decodeInstr_cmos {r : Row} (hr : r ∈ opcodeMap) (b1 b2 : Byte) :
    r.Describes b1 b2 (decodeInstr .cmos r.code b1 b2) := by
  have table : ∀ r ∈ opcodeMap,
      (decodeInstr .cmos r.code b1 b2).columns = (r.op, r.code, r.mode.assemble b1 b2, !r.both) := by
    delta opcodeMap
    simp only [List.forall_mem_append]
    and_intros <;> exact List.map_inj_left.mp rfl
  simp only [Instr.columns, Prod.mk.injEq] at table
  obtain ⟨hop, hcode, hoperand, hcmos⟩ := table r hr
  exact ⟨hop, hcode, hoperand, hcmos⟩

section
variable {v : Variant} {r : Row} (hr : r ∈ opcodeMap) (hv : (r.both || v == .cmos) = true) (b1 b2 : Byte)
include hr hv

/-- A row that both variants have means the same under both (R86). -/
theorem decodeInstr_row_eq_cmos : decodeInstr v r.code b1 b2 = decodeInstr .cmos r.code b1 b2 := by
  have h := describes_decodeInstr_cmos hr b1 b2
  have self := decodeInstr_opcodeByte (h.opcode_ne_invalid hr) ((h.wellFormed hr v).trans hv)
    (h.operand.trans (congrArg _ h.mode.symm))
  rwa [h.opcodeByte] at self

theorem describes_decodeInstr : r.Describes b1 b2 (decodeInstr v r.code b1 b2) :=
  decodeInstr_row_eq_cmos hr hv b1 b2 ▸ describes_decodeInstr_cmos hr b1 b2

end

theorem mem_cmosCodes_of_row {r : Row} (hr : r ∈ opcodeMap) : r.both = false → r.code ∈ cmosCodes := by
  revert r
  delta opcodeMap
  simp only [List.forall_mem_append]
  and_intros <;> decide

theorem mem_invalidCodes_or_exists_row (op : Byte) : op ∈ invalidCodes ∨ ∃ r ∈ opcodeMap, r.code = op := by
  have table : (List.range 256).all (fun n =>
      (invalidCodes ++ opcodeMap.map Row.code).contains (BitVec.ofNat 8 n)) = true := by decide +kernel
  simpa using List.all_eq_true.mp table op.toNat (List.mem_range.mpr op.isLt)

/-- A byte has a row of the map that the variant has, or is outside the valid set (R86, R88, R89). -/
theorem exists_row_or_validCode_eq_false (v : Variant) (op : Byte) :
    (∃ r ∈ opcodeMap, r.code = op ∧ (r.both || v == .cmos) = true) ∨ validCode v op = false := by
  obtain h | ⟨r, hr, rfl⟩ := mem_invalidCodes_or_exists_row op
  · refine .inr ?_
    cases v <;> simp [validCode, h]
  · cases hv : r.both || v == .cmos with
    | true => exact .inl ⟨r, hr, rfl, hv⟩
    | false =>
      obtain ⟨hboth, hne⟩ := Bool.or_eq_false_iff.mp hv
      cases v with
      | cmos => cases hne
      | nmos => exact .inr (by simp [validCode, mem_cmosCodes_of_row hr hboth])

/-! ### Lists of bytes -/

theorem decode_eq_ok {v : Variant} {op : Byte} {i : Instr} {rest : List Byte}
    (h : decodeInstr v op ((i.operand.bytes ++ rest).getD 0 0) ((i.operand.bytes ++ rest).getD 1 0) = i) :
    decode v (op :: (i.operand.bytes ++ rest)) = .ok (i, rest) := by
  simp only [decode, h]
  rw [if_neg (by simp), List.drop_left]

/-- Settles O1: `INVALID` and the forms of the table apart. -/
theorem decodingAnEncodedInstructionGivesItBack : Obligations.DecodingAnEncodedInstructionGivesItBack := by
  intro v i rest hwf
  refine decode_eq_ok ?_
  by_cases hi : i.opcode = .invalid
  · obtain ⟨b, rfl⟩ := Instr.eq_invalid_of_opcode hi
    have hcode : validCode v b = false := by simpa [Instr.wellFormed] using hwf
    exact decodeInstr_of_validCode_eq_false hcode _ _
  · exact decodeInstr_opcodeByte hi hwf (Operand.eq_assemble _ rest)

/-- Settles O2: a row's operand is assembled from the bytes after the opcode byte, and `INVALID` has none. -/
theorem encodingADecodedInstructionGivesItsBytesBack : Obligations.EncodingADecodedInstructionGivesItsBytesBack := by
  intro v op b1 b2
  obtain ⟨r, hr, rfl, hv⟩ | h := exists_row_or_validCode_eq_false v op
  · have hi := describes_decodeInstr hr hv b1 b2
    have hle := r.mode.operandBytes_le_two
    refine ⟨(hi.wellFormed hr v).trans hv, ?_, ?_⟩
    · simp [encode, Instr.length, hi.opcodeByte, hi.operand, Nat.add_comm 1, hle]
    · simpa [Instr.length, hi.operand, hle] using Nat.add_le_add_left hle 1
  · simp [decodeInstr_of_validCode_eq_false h, Instr.wellFormed, h, encode, Instr.length, Instr.opcodeByte, Instr.operand,
      Operand.bytes]

/-! ### The columns of the map -/

/-- The cycle and penalty columns of the decoder's table against those of the map (R89, R351 to R353). -/
theorem codeCycles_codePenalty_row {v : Variant} {r : Row} (hr : r ∈ opcodeMap) : (r.both || v == .cmos) = true →
    codeCycles v r.code = (match v with | .nmos => r.cyclesNmos | .cmos => r.cyclesCmos) ∧
      codePenalty v r.code = (match v with | .nmos => r.penaltyNmos | .cmos => r.penaltyCmos) := by
  revert r
  delta opcodeMap
  simp only [List.forall_mem_append]
  and_intros <;> cases v <;> decide

/-- Settles O3: the rows by `describes_decodeInstr`, the other bytes are `INVALID`. -/
theorem decodeFollowsTheOpcodeMap : Obligations.DecodeFollowsTheOpcodeMap := by
  constructor
  · intro r hr v b1 b2 hv i
    have hi : r.Describes b1 b2 i := describes_decodeInstr hr hv b1 b2
    have hvalid := hi.opcode_ne_invalid hr
    rw [Instr.baseCycles_eq v hvalid, Instr.pagePenalty_eq v hvalid, hi.opcodeByte]
    exact ⟨hi.opcode, hi.mode, codeCycles_codePenalty_row hr hv⟩
  · intro v op b1 b2 hmap i
    obtain ⟨r, hr, rfl, hv⟩ | h := exists_row_or_validCode_eq_false v op
    · have hmapped : mapped v r.code = true := List.any_eq_true.mpr ⟨r, hr, by simpa using hv⟩
      exact absurd (hmapped.symm.trans hmap) nofun
    · have hi : i = .invalid op := decodeInstr_of_validCode_eq_false h b1 b2
      rw [hi]
      exact ⟨rfl, rfl, rfl, rfl, rfl⟩

/-- Settles O4: the counts by running the decoder on every byte; a byte valid under `NMOS` has a row that both variants have. -/
theorem validOpcodeCounts : Obligations.ValidOpcodeCounts := by
  refine ⟨by decide +kernel, by decide +kernel, ?_⟩
  intro op b1 b2 hvalid
  obtain ⟨r, hr, rfl, hv⟩ | h := exists_row_or_validCode_eq_false .nmos op
  · exact (decodeInstr_row_eq_cmos hr hv b1 b2).symm
  · exact absurd (congrArg Instr.opcode (decodeInstr_of_validCode_eq_false h b1 b2)) hvalid

/-- Settles O5, by running the decoder. -/
theorem sampleWordsDecodeAsWritten : Obligations.SampleWordsDecodeAsWritten := by
  intro v
  cases v <;> decide

end Sys2Proof

/-! ## A step, the address modes and the cost of a step (R110 to R130, R350 to R353)

A step executes what the bytes at `PC` decode to. The resolver's addresses are read as numbers, a crossed page as a carry out of
the low byte. The rules for the cost are compared with the cycle columns row by row of the opcode map: the form that is well formed
has a row (`exists_row_of_wellFormed`). -/

namespace Sys2Proof

open Sys2Proof.Claim

/-! ### Decoding from enough bytes -/

theorem Instr.length_le_three (i : Instr) : i.length ≤ 3 := by
  have hbytes := congrArg Operand.bytes (i.operand.eq_assemble [])
  rw [Mode.bytes_assemble] at hbytes
  rw [Instr.length, hbytes]
  exact Nat.add_le_add_left (List.length_take_le' _ _) 1

/-- Where a list of bytes decodes, it decodes to what the table has for them. -/
theorem decodeInstr_eq_of_decode {v : Variant} {op : Byte} {bytes rest : List Byte} {i : Instr}
    (h : decode v (op :: bytes) = .ok (i, rest)) : decodeInstr v op (bytes.getD 0 0) (bytes.getD 1 0) = i := by
  rw [decode] at h
  split at h
  · cases h
  · injection h with h
    exact congrArg Prod.fst h

/-! ### Addresses as numbers -/

/-- The value of an address in the order in which the rules write it. -/
theorem toNat_cat_mul_left (h l : Byte) : (cat h l).toNat = 256 * h.toNat + l.toNat := by
  rw [toNat_cat, Nat.mul_comm]

theorem toNat_add_zext16 (w : Addr) (k : Byte) : (w + zext16 k).toNat = (w.toNat + k.toNat) % 65536 := by
  rw [BitVec.toNat_add, toNat_zext16]

/-- Two addresses lie in different pages. -/
theorem hi_bne_hi (w z : Addr) : (hi w != hi z) = decide (w.toNat / 256 ≠ z.toNat / 256) := by
  rw [Bool.eq_iff_iff]
  simp [BitVec.toNat_eq, toNat_hi]

/-- An index changes the page exactly when it carries out of the low byte (R125). -/
theorem hi_bne_hi_add_zext16 (w : Addr) (k : Byte) :
    (hi w != hi (w + zext16 k)) = decide (256 ≤ w.toNat % 256 + k.toNat) := by
  rw [hi_bne_hi, toNat_add_zext16, decide_eq_decide]
  have := w.isLt
  have := k.isLt
  omega

/-! ### The cycle rules against the cycle columns -/

/-- The classes of R351 to R353 against the columns of the opcode table, row by row of the map. -/
theorem baseOf_paysPage_row {v : Variant} {r : Row} (hr : r ∈ opcodeMap) : (r.both || v == .cmos) = true →
    baseOf v r.op r.mode = codeCycles v r.code ∧ paysPage v r.op r.mode = codePenalty v r.code := by
  revert r
  delta opcodeMap
  simp only [List.forall_mem_append]
  and_intros <;> cases v <;> decide

/-- Every well-formed form but `INVALID` has a row of the map that the variant has (R86, R89). -/
theorem exists_row_of_wellFormed {v : Variant} {i : Instr} (hwf : i.wellFormed v = true) (hi : i.opcode ≠ .invalid) :
    ∃ r ∈ opcodeMap, (r.both || v == .cmos) = true ∧ i.opcodeByte = r.code ∧ i.opcode = r.op ∧ i.mode = r.mode := by
  have self := decodeInstr_opcodeByte hi hwf (i.operand.eq_assemble [])
  obtain ⟨r, hr, hcode, hv⟩ | h := exists_row_or_validCode_eq_false v i.opcodeByte
  · have hrow := describes_decodeInstr hr hv ((i.operand.bytes ++ []).getD 0 0) ((i.operand.bytes ++ []).getD 1 0)
    rw [hcode, self] at hrow
    exact ⟨r, hr, hv, hrow.opcodeByte, hrow.opcode, hrow.mode⟩
  · rw [decodeInstr_of_validCode_eq_false h] at self
    exact absurd (congrArg Instr.opcode self).symm hi

theorem baseOf_paysPage {v : Variant} {i : Instr} (hwf : i.wellFormed v = true) :
    baseOf v i.opcode i.mode = i.baseCycles v ∧ paysPage v i.opcode i.mode = i.pagePenalty v := by
  by_cases hi : i.opcode = .invalid
  · obtain ⟨b, rfl⟩ := Instr.eq_invalid_of_opcode hi
    cases v <;> exact ⟨rfl, rfl⟩
  · obtain ⟨r, hr, hv, hcode, hop, hmode⟩ := exists_row_of_wellFormed hwf hi
    rw [Instr.baseCycles_eq v hi, Instr.pagePenalty_eq v hi, hcode, hop, hmode]
    exact baseOf_paysPage_row hr hv

end Sys2Proof

namespace Sys2Proof.Machine

open Sys2Proof.Claim

/-! ### Steps -/

theorem State.bytesFrom_three (s : State) (a : Addr) : s.bytesFrom a 3 = [s.read a, s.read (a + 1), s.read (a + 2)] := by
  have next : a + 1 + 1 = a + 2 := BitVec.add_assoc a 1 1
  simp only [State.bytesFrom, next]

theorem State.bytesFrom_add (s : State) (a : Addr) (m n : Nat) :
    s.bytesFrom a (m + n) = s.bytesFrom a m ++ s.bytesFrom (a + BitVec.ofNat 16 m) n := by
  induction m generalizing a with
  | zero => rw [Nat.zero_add, BitVec.add_zero]; rfl
  | succ m ih => rw [Nat.succ_add, State.bytesFrom, ih, add_one_add_ofNat]; rfl

/-- Settles O6: the decoder is handed the same three bytes by `fetch`. -/
theorem stepRunsTheDecodedInstruction : Obligations.StepRunsTheDecodedInstruction := by
  intro s i rest h
  rw [State.bytesFrom_three] at h
  have fetched : s.fetch = i := decodeInstr_eq_of_decode h
  rw [step_eq, fetched]

/-- Settles O7, from O6: the three bytes from `PC` on are the encoding and what follows it, and they decode by O1. -/
theorem stepRunsTheEncodedInstructionAtPc : Obligations.StepRunsTheEncodedInstructionAtPc := by
  intro s i hwf hcode
  obtain ⟨n, hn⟩ := Nat.exists_eq_add_of_le i.length_le_three
  refine stepRunsTheDecodedInstruction s i (s.bytesFrom (s.pc + BitVec.ofNat 16 i.length) n) ?_
  rw [hn, State.bytesFrom_add, hcode]
  exact decodingAnEncodedInstructionGivesItBack s.variant i _ hwf

/-- Settles O9, from how every instruction ends, the frame of the registers and the bounds on the cost. -/
theorem everyStepCompletes : Obligations.EveryStepCompletes := by
  intro s
  obtain ⟨u, hu, hcyc, -⟩ := exec_endsStoring s.fetch s
  obtain ⟨hpos, hle⟩ := s.cost_bounds s.fetch (taken s s.fetch)
  refine ⟨_, hu, (exec_keeps s.fetch s _ hu).variant, ?_⟩
  rw [cyc_completed, hcyc]
  omega

/-! ### The address modes -/

theorem State.effectiveAddress_rel (s : State) (d : Byte) :
    s.effectiveAddress (.rel d) = BitVec.ofInt 16 (s.pc.toNat + d.toInt) := by
  rw [BitVec.ofInt_add, BitVec.ofInt_natCast, BitVec.ofNat_toNat, BitVec.setWidth_eq]
  rfl

theorem State.modeCrossed_rel (s : State) (d : Byte) :
    s.modeCrossed (.rel d) = decide (s.pc.toNat / 256 ≠ (BitVec.ofInt 16 (s.pc.toNat + d.toInt)).toNat / 256) := by
  rw [State.modeCrossed, hi_bne_hi, s.effectiveAddress_rel]

theorem State.modeCrossed_abx (s : State) (w : Addr) :
    s.modeCrossed (.abx w) = decide (256 ≤ w.toNat % 256 + s.x.toNat) := hi_bne_hi_add_zext16 w s.x

theorem State.modeCrossed_aby (s : State) (w : Addr) :
    s.modeCrossed (.aby w) = decide (256 ≤ w.toNat % 256 + s.y.toNat) := hi_bne_hi_add_zext16 w s.y

/-- The low byte of the base is the byte at the pointer (R56, R119). -/
theorem State.modeCrossed_izy (s : State) (b : Byte) :
    s.modeCrossed (.izy b) = decide (256 ≤ (s.read (zext16 b)).toNat + s.y.toNat) := by
  have low : (s.read16zp b).toNat % 256 = (s.read (zext16 b)).toNat := by
    rw [← toNat_lo, State.read16zp, lo_cat]
  rw [State.modeCrossed, State.effectiveAddress, hi_bne_hi_add_zext16, low]

/-- Settles O27: the sum of two bytes is one modulo 256, and a byte is an address of page zero. -/
theorem zeroPageModesStayInPageZero : Obligations.ZeroPageModesStayInPageZero := by
  refine ⟨fun s b => ⟨toNat_zext16 b, (toNat_zext16 _).trans (BitVec.toNat_add b s.x),
    (toNat_zext16 _).trans (BitVec.toNat_add b s.y), rfl, rfl, rfl, rfl, rfl, rfl⟩, fun s hx => ?_⟩
  rw [State.effectiveAddress, hx]
  rfl

/-- Settles O28, from the words of page zero (O16). -/
theorem zeroPagePointerModes : Obligations.ZeroPagePointerModes := by
  intro s b word
  have word_eq (p : Byte) : (s.read16zp p).toNat = word p.toNat := wordsInMemoryAreLittleEndian.2 s p
  have izy : (s.effectiveAddress (.izy b)).toNat = (word b.toNat + s.y.toNat) % 65536 := by
    rw [← word_eq]
    exact toNat_add_zext16 _ _
  refine ⟨(word_eq _).trans (congrArg word (BitVec.toNat_add b s.x)), word_eq b, izy, rfl, rfl, ?_, rfl, rfl, rfl⟩
  rw [State.modeCrossed, hi_bne_hi, word_eq, izy]

/-- Settles O29: what is said of an index is said once, for `X` and for `Y`. -/
theorem absoluteModes : Obligations.AbsoluteModes := by
  intro s l h base
  have hbase : (cat h l).toNat = base := toNat_cat_mul_left h l
  have indexed (k : Byte) : (cat h l + zext16 k).toNat = (base + k.toNat) % 65536 := by rw [toNat_add_zext16, hbase]
  have crossed (k : Byte) :
      (hi (cat h l) != hi (cat h l + zext16 k)) = decide (h.toNat ≠ (base + k.toNat) % 65536 / 256) := by
    rw [hi_bne_hi, indexed, ← toNat_hi, hi_cat]
  have bytes : [lo (cat h l), hi (cat h l)] = [l, h] := by rw [lo_cat, hi_cat]
  exact ⟨hbase, indexed s.x, indexed s.y, rfl, crossed s.x, crossed s.y, bytes, bytes, bytes⟩

/-- Settles O30: under `NMOS` only the low byte of the pointer is incremented, elsewhere a word is read as by O16. -/
theorem indirectJumpModes : Obligations.IndirectJumpModes := by
  intro s l h at16 ptr ptrX
  have hptr : (cat h l).toNat = ptr := toNat_cat_mul_left h l
  have hptrX : (cat h l + zext16 s.x).toNat = ptrX := by rw [toNat_add_zext16, hptr]
  have word (a : Addr) : (s.read16 a).toNat = at16 a.toNat ((a.toNat + 1) % 65536) := wordsInMemoryAreLittleEndian.1 s a
  have bytes : [lo (cat h l), hi (cat h l)] = [l, h] := by rw [lo_cat, hi_cat]
  refine ⟨?_, hptrX ▸ word _, rfl, rfl, bytes, bytes⟩
  rw [State.effectiveAddress, State.readPointer]
  cases s.variant with
  | nmos =>
    have samePage : (cat h (l + 1)).toNat = 256 * h.toNat + (l.toNat + 1) % 256 :=
      (toNat_cat_mul_left h (l + 1)).trans (congrArg _ (BitVec.toNat_add l 1))
    rw [hi_cat, lo_cat]
    exact (toNat_cat_mul_left _ _).trans (congrArg₂ at16 hptr samePage)
  | cmos => exact hptr ▸ word _

/-- Settles O31, one lemma per mode. -/
theorem relativeModeAndPageCrossing : Obligations.RelativeModeAndPageCrossing := by
  refine ⟨fun s d => ⟨s.effectiveAddress_rel d, s.modeCrossed_rel d⟩, fun s w => ⟨s.modeCrossed_abx w, s.modeCrossed_aby w⟩,
    fun s b => ?_⟩
  rw [s.modeCrossed_izy b, State.read, toNat_zext16]

/-! ### The cost and the record -/

/-- Only a branch is taken (R240). -/
theorem mode_eq_rel_of_taken {s : State} {i : Instr} (h : taken s i = true) : i.mode = .rel := by
  cases i with
  | bcc _ | bcs _ | beq _ | bmi _ | bne _ | bpl _ | bra _ | bvc _ | bvs _ => rfl
  | _ => cases h

/-- The page crossing of the rules, said by the carry, is that of the resolver past the operands (R125, R130). -/
theorem crosses_eq_pageCrossed (s : State) (i : Instr) : crosses s i = (s.pastOperands i).pageCrossed i.operand := by
  rw [crosses]
  cases h : i.operand with
  | mem a =>
    cases a with
    | abx w => exact ((s.pastOperands i).modeCrossed_abx w).symm
    | aby w => exact ((s.pastOperands i).modeCrossed_aby w).symm
    | izy b =>
      have carry := (s.pastOperands i).modeCrossed_izy b
      rw [zext16, ← BitVec.ofNat_toNat] at carry
      exact carry.symm
    | rel d =>
      have next : (s.pastOperands i).pc = s.pc + 2 := by
        rw [State.pc_pastOperands, Instr.length, h]
        rfl
      rw [State.pageCrossed, State.modeCrossed_rel, next, decide_eq_decide]
      exact ne_comm
    | _ => rfl
  | _ => rfl

/-- The cost by the rules is the model's, term by term (R350). -/
theorem ruleCycles_eq_cost {s : State} {i : Instr} (hwf : i.wellFormed s.variant = true) :
    ruleCycles s i = s.cost i (taken s i) := by
  obtain ⟨hbase, hpage⟩ := baseOf_paysPage hwf
  have hrel : (i.mode == .rel && taken s i) = taken s i :=
    Bool.and_eq_right_iff_imp.mpr fun h => beq_iff_eq.mpr (mode_eq_rel_of_taken h)
  rw [ruleCycles, State.cost, cycleCost, hbase, hpage, crosses_eq_pageCrossed, hrel]
  simp [bitNat, and_assoc]

/-- Settles O26, from how every instruction ends and the cost by the rules. -/
theorem resultRecordAndCyclesFollowTheRules : Obligations.ResultRecordAndCyclesFollowTheRules := by
  intro i s hwf
  obtain ⟨u, hu, hcyc, -⟩ := exec_endsStoring i s
  rw [ruleCycles_eq_cost hwf]
  refine ⟨_, hu, ?_, rfl, s.cost_bounds i _⟩
  rw [cyc_completed, hcyc]

end Sys2Proof.Machine

/-! ## How an instruction is written and what it writes (R80, R86, R131, R153 to R162)

`Coded` follows from the encoding and the variants of the form (`coded`): the form is read back by O1, and under `NMOS` the byte of a
`CMOS` addition is `INVALID`. `Effect` of an instruction that ends with a register loaded or with a byte stored is said once for each. -/

namespace Sys2Proof

open Sys2Proof.Claim

/-! ### Encodings -/

/-- The byte of a `CMOS` addition is `INVALID` under `NMOS`, and `INVALID` takes no operand byte (R86, R88). -/
theorem decode_nmos_encode_of_cmosOnly {i : Instr} (hvalid : i.opcode ≠ .invalid) (hcmos : i.cmosOnly = true) :
    decode .nmos (encode i) = .ok (.invalid i.opcodeByte, i.operand.bytes) := by
  refine decode_eq_ok (i := .invalid i.opcodeByte) ?_
  have table := decodeInstr_opcodeByte_eq_onlyCmos .nmos hvalid (i.operand.eq_assemble [])
  rw [hcmos, List.append_nil] at table
  exact table

theorem coded {both : Bool} {i : Instr} {op : Byte} {operands : List Byte} (hvalid : i.opcode ≠ .invalid)
    (hcmos : i.cmosOnly = !both) (hcode : encode i = op :: operands) : Coded both i op operands := by
  have back (v : Variant) (hwf : i.wellFormed v = true) : decode v (op :: operands) = .ok (i, []) := by
    rw [← hcode, ← List.append_nil (encode i)]
    exact decodingAnEncodedInstructionGivesItBack v i [] hwf
  refine ⟨hcode, back .cmos (i.wellFormed_eq .cmos hvalid), ?_⟩
  cases both with
  | true => exact back .nmos ((i.wellFormed_eq .nmos hvalid).trans (by rw [hcmos]; rfl))
  | false =>
    obtain ⟨rfl, rfl⟩ := List.cons.inj hcode
    exact decode_nmos_encode_of_cmosOnly hvalid hcmos

/-- A form whose operand is an address: its bytes are written low byte first (R57, R82). -/
theorem coded_cat {both : Bool} {i : Instr} {op h l : Byte} (hvalid : i.opcode ≠ .invalid) (hcmos : i.cmosOnly = !both)
    (hcode : encode i = [op, lo (cat h l), hi (cat h l)]) : Coded both i op [l, h] := by
  rw [lo_cat, hi_cat] at hcode
  exact coded hvalid hcmos hcode

theorem accMemCoded {mk : AccMem → Instr} {zp zpx abs abx aby izx izy izp : Byte} (hvalid : ∀ m, (mk m).opcode ≠ .invalid)
    (hcmos : ∀ m, (mk m).cmosOnly = m.cmosOnly)
    (hcode : ∀ m, encode (mk m) = m.pick zp zpx abs abx aby izx izy izp :: m.addr.bytes) :
    AccMemCoded mk zp zpx abs abx aby izx izy izp := fun _ _ _ =>
  ⟨coded (hvalid _) (hcmos _) (hcode _), coded (hvalid _) (hcmos _) (hcode _), coded_cat (hvalid _) (hcmos _) (hcode _),
    coded_cat (hvalid _) (hcmos _) (hcode _), coded_cat (hvalid _) (hcmos _) (hcode _), coded (hvalid _) (hcmos _) (hcode _),
    coded (hvalid _) (hcmos _) (hcode _), coded (hvalid _) (hcmos _) (hcode _)⟩

theorem accCoded {mk : Src AccMem → Instr} {imm zp zpx abs abx aby izx izy izp : Byte}
    (hvalid : ∀ src, (mk src).opcode ≠ .invalid) (hcmos : ∀ src, (mk src).cmosOnly = src.accCmosOnly)
    (himm : ∀ b, encode (mk (.imm b)) = [imm, b])
    (hcode : ∀ m, encode (mk (.mem m)) = m.pick zp zpx abs abx aby izx izy izp :: m.addr.bytes) :
    AccCoded mk imm zp zpx abs abx aby izx izy izp :=
  ⟨fun b => coded (hvalid _) (hcmos _) (himm b), accMemCoded (fun _ => hvalid _) (fun _ => hcmos _) hcode⟩

/-- The modes `ZPX` and `ABX` among those of `XMem`. -/
def XMem.indexed : XMem → Bool
  | .zp _ | .abs _ => false
  | .zpx _ | .abx _ => true

theorem xMemCoded {both bothX : Bool} {mk : XMem → Instr} {zp zpx abs abx : Byte} (hvalid : ∀ m, (mk m).opcode ≠ .invalid)
    (hcmos : ∀ m, (mk m).cmosOnly = !(bif m.indexed then bothX else both))
    (hcode : ∀ m, encode (mk m) = m.pick zp zpx abs abx :: m.addr.bytes) : XMemCoded both bothX mk zp zpx abs abx :=
  fun _ _ _ =>
    ⟨coded (hvalid _) (hcmos _) (hcode _), coded (hvalid _) (hcmos _) (hcode _), coded_cat (hvalid _) (hcmos _) (hcode _),
      coded_cat (hvalid _) (hcmos _) (hcode _)⟩

/-! ### Registers as a statement shows them -/

/-- The registers with one data register replaced. -/
def Claim.Regs.put (q : Regs) (r : Machine.DataReg) (v : Byte) : Regs :=
  match r with
  | .ac => { q with ac := v }
  | .x => { q with x := v }
  | .y => { q with y := v }

end Sys2Proof

namespace Sys2Proof.Machine

open Sys2Proof.Claim

@[simp] theorem State.read_putReg (s : State) (r : DataReg) (v : Byte) (a : Addr) : (s.putReg r v).read a = s.read a := by
  rw [State.putReg, State.read_updateZeroNegative, State.read_setReg]

theorem regs_putReg (s : State) (r : DataReg) (v : Byte) :
    regs (s.putReg r v) = { (regs s).put r v with sr := zn s.sr v } := by
  rw [← Flags.updateZeroNegative_eq_zn]
  cases r <;> rfl

theorem regs_completed (i : Instr) (s t : State) (k : Bool) : regs (completed i s k t) = regs t := rfl

theorem regs_pastOperands (s : State) (i : Instr) : regs (s.pastOperands i) = { regs s with pc := nextPc s i } := by
  have length : i.length = (encode i).length := Nat.add_comm 1 _
  rw [State.pastOperands, length]
  rfl

/-! ### The shapes of instruction -/

/-- Every instruction that puts a byte in a data register, with `Z` and `N` from it, and stores nothing. -/
theorem effect_of_complete_putReg {i : Instr} {s : State} (r : DataReg) (v : Byte)
    (h : exec i s = complete i s false ((s.pastOperands i).putReg r v)) :
    Effect i s { (regs s).put r v with pc := nextPc s i, sr := zn s.sr v } s.read := by
  refine ⟨_, h, ?_, fun a => by rw [read_completed, State.read_putReg, State.read_pastOperands]⟩
  rw [regs_completed, regs_putReg, regs_pastOperands]
  cases r <;> rfl

theorem effect_of_storeByte {i : Instr} {s : State} {v : Byte} {a : AddrMode} (h : exec i s = storeByte i v a s) :
    Effect i s { regs s with pc := nextPc s i } (poke s.read (eaOf s i a) v) :=
  ⟨_, h, regs_pastOperands s i, fun b => State.read_write (s.pastOperands i) (eaOf s i a) b v⟩

/-- The cost of an instruction without additions is that of its class and mode (R350, R351). -/
theorem ruleCycles_eq_baseOf {s : State} {i : Instr} (hcross : crosses s i = false) (htaken : taken s i = false)
    (hadc : i.opcode ≠ .adc) (hsbc : i.opcode ≠ .sbc) : ruleCycles s i = baseOf s.variant i.opcode i.mode := by
  simp [ruleCycles, hcross, htaken, hadc, hsbc]

/-! ### Loads, stores and transfers -/

/-- Settles O32: a load ends with the operand put in its register; the cost of the immediate form is by O26. -/
theorem loadsPutTheOperandInTheRegister : Obligations.LoadsPutTheOperandInTheRegister := by
  refine ⟨accCoded (fun _ => nofun) (fun _ => rfl) (fun _ => rfl) (fun _ => rfl), fun b l h => ?_,
    xMemCoded (fun _ => nofun) (fun m => by cases m <;> rfl) (fun _ => rfl),
    fun src s => effect_of_complete_putReg .ac (operandOf s (.lda src) _) rfl,
    fun src s => effect_of_complete_putReg .x (operandOf s (.ldx src) _) rfl,
    fun src s => effect_of_complete_putReg .y (operandOf s (.ldy src) _) rfl, fun b s => ?_⟩
  · exact ⟨coded nofun rfl rfl, coded nofun rfl rfl, coded nofun rfl rfl, coded_cat nofun rfl rfl, coded_cat nofun rfl rfl,
      coded nofun rfl rfl⟩
  · have hwf : (Instr.lda (.imm b)).wellFormed s.variant = true := Bool.or_true _
    obtain ⟨t, ht, hcyc, -⟩ := resultRecordAndCyclesFollowTheRules (.lda (.imm b)) s hwf
    rw [ruleCycles_eq_baseOf (i := .lda (.imm b)) rfl rfl nofun nofun] at hcyc
    exact ⟨t, ht, hcyc⟩

/-- Settles O33: a store ends with one byte written at `EA`; the penalty is read from the opcode table, form by form. -/
theorem storesWriteOneByte : Obligations.StoresWriteOneByte := by
  refine ⟨accMemCoded (fun _ => nofun) (fun _ => rfl) (fun _ => rfl), fun b l h => ?_,
    xMemCoded (fun _ => nofun) (fun m => by cases m <;> rfl) (fun _ => rfl), fun _ _ => effect_of_storeByte rfl,
    fun _ _ => effect_of_storeByte rfl, fun _ _ => effect_of_storeByte rfl, fun _ _ => effect_of_storeByte rfl,
    fun m v => by cases m <;> cases v <;> rfl, fun m v => by cases m <;> cases v <;> rfl⟩
  exact ⟨coded nofun rfl rfl, coded nofun rfl rfl, coded_cat nofun rfl rfl, coded nofun rfl rfl, coded nofun rfl rfl,
    coded_cat nofun rfl rfl⟩

/-- Settles O34: a transfer ends with the source put in its register, but `TXS`, which writes `SP` and no flag. -/
theorem transfersCopyARegister : Obligations.TransfersCopyARegister := by
  refine ⟨coded nofun rfl rfl, coded nofun rfl rfl, coded nofun rfl rfl, coded nofun rfl rfl, coded nofun rfl rfl,
    coded nofun rfl rfl, fun s => ?_⟩
  exact ⟨effect_of_complete_putReg .x s.ac rfl, effect_of_complete_putReg .y s.ac rfl, effect_of_complete_putReg .ac s.x rfl,
    effect_of_complete_putReg .ac s.y rfl, effect_of_complete_putReg .x s.sp rfl, _, rfl, rfl, fun _ => rfl⟩

end Sys2Proof.Machine

/-! ## Addition and subtraction, binary and decimal (R180 to R183)

The rules write the functions of the ALU on numbers; the model holds the result as a byte and the overflow as a mask. First the bits
the flags are read from, as numbers; then the binary functions, from which the decimal ones take their flags. -/

namespace Sys2Proof

open Sys2Proof.Claim

/-! ### The bits of a byte as numbers -/

theorem bit7_eq_decide (v : Byte) : bit7 v = decide (128 ≤ v.toNat) := BitVec.msb_eq_decide v

theorem bit7_ofNat (t : Nat) : bit7 (BitVec.ofNat 8 t) = t.testBit 7 := BitVec.getLsbD_ofNat 8 t 7

theorem beq_zero_eq_decide (v : Byte) : (v == 0) = decide (v.toNat = 0) := by
  rw [Bool.eq_iff_iff]
  simp [BitVec.toNat_eq]

theorem and_sign_bne_zero (v : Byte) : (v &&& 0x80 != 0) = bit7 v := by
  revert v
  decide

/-- `testBit` reads the bit that a mask of one bit keeps. -/
theorem and_sign_ne_zero_iff (n : Nat) : n &&& 0x80 ≠ 0 ↔ n.testBit 7 = true := by
  have mask : n &&& 0x80 = (n.testBit 7).toNat * 2 ^ 7 := Nat.and_two_pow n 7
  rw [mask]
  cases n.testBit 7 <;> decide

theorem toInt_eq_sub_sign (v : Byte) : v.toInt = v.toNat - if 128 ≤ v.toNat then 256 else 0 := by
  rw [BitVec.toInt_eq_toNat_cond]
  split <;> split <;> omega

/-- The one's complement as the rules write it (R181, R194). -/
theorem xor_ones_eq_not (v : Byte) : v ^^^ 0xFF = ~~~v := BitVec.xor_allOnes

theorem toNat_xor_ones (v : Byte) : (v ^^^ 0xFF).toNat = 255 - v.toNat := by
  rw [xor_ones_eq_not, BitVec.toNat_not]

end Sys2Proof

namespace Sys2Proof.Machine

open Sys2Proof.Claim

/-! ### Overflow -/

/-- The mask of R180 keeps the sign bits only. -/
theorem overflow_eq_xor (a m r : Byte) : overflow a m r = ((bit7 a ^^ bit7 r) && (bit7 m ^^ bit7 r)) := by
  rw [overflow, and_sign_bne_zero]
  simp [bit7]

theorem overflow_eq_signs (a m r : Byte) : overflow a m r = decide (bit7 a = bit7 m ∧ bit7 r ≠ bit7 a) := by
  rw [overflow_eq_xor]
  cases bit7 a <;> cases bit7 m <;> cases bit7 r <;> rfl

/-- R180: the sign bits of an addition tell whether the signed sum fits a byte. -/
theorem overflow_add_eq_decide (a m : Byte) (c : Bool) :
    overflow a m (BitVec.ofNat 8 (a.toNat + m.toNat + bit c)) =
      decide (a.toInt + m.toInt + bit c < -128 ∨ 127 < a.toInt + m.toInt + bit c) := by
  have ha := a.isLt
  have hm := m.isLt
  have hc := bit_le_one c
  rw [overflow_eq_signs, decide_eq_decide]
  simp only [bit7_eq_decide, decide_eq_decide, ne_eq, BitVec.toNat_ofNat, toInt_eq_sub_sign]
  split <;> split <;> omega

/-- The mask of R182, on the numbers of the rule: only bit 7 of the intermediate sum counts. -/
theorem overflow_ofNat_eq_decide (a m : Byte) (t : Nat) :
    overflow a m (BitVec.ofNat 8 t) = decide (((a.toNat ^^^ t) &&& (m.toNat ^^^ t)) &&& 0x80 ≠ 0) := by
  have mask : overflow a m (BitVec.ofNat 8 t) = ((a.toNat ^^^ t) &&& (m.toNat ^^^ t)).testBit 7 := by
    rw [overflow_eq_xor, bit7_ofNat, Nat.testBit_and, Nat.testBit_xor, Nat.testBit_xor]
    rfl
  rw [mask, Bool.eq_iff_iff, decide_eq_true_iff, and_sign_ne_zero_iff]

/-! ### Binary -/

theorem toNat_r_adcBin (a m : Byte) (c : Bool) : (adcBin a m c).r.toNat = (a.toNat + m.toNat + bit c) % 256 :=
  BitVec.toNat_ofNat _ _

theorem c_adcBin (a m : Byte) (c : Bool) : (adcBin a m c).c = decide (256 ≤ a.toNat + m.toNat + bit c) := rfl

theorem v_adcBin (a m : Byte) (c : Bool) :
    (adcBin a m c).v = decide (a.toInt + m.toInt + bit c < -128 ∨ 127 < a.toInt + m.toInt + bit c) :=
  overflow_add_eq_decide a m c

theorem z_adcBin (a m : Byte) (c : Bool) : (adcBin a m c).z = decide ((adcBin a m c).r.toNat = 0) :=
  beq_zero_eq_decide _

theorem n_adcBin (a m : Byte) (c : Bool) : (adcBin a m c).n = decide (128 ≤ (adcBin a m c).r.toNat) :=
  bit7_eq_decide _

/-- Settles O35, one lemma per clause; the three forms of the overflow are the mask, the sign bits and the signed sum. -/
theorem binaryAdditionIsExact : Obligations.BinaryAdditionIsExact := by
  intro a m c
  refine ⟨toNat_r_adcBin a m c, c_adcBin a m c, v_adcBin a m c, rfl, overflow_eq_signs a m _, ?_, ?_⟩
  · rw [z_adcBin, toNat_r_adcBin]
  · rw [n_adcBin, toNat_r_adcBin]

/-- The complement is the number below 256 that makes a borrow of a carry (R181). -/
theorem toNat_r_sbcBin (a m : Byte) (c : Bool) :
    ((sbcBin a m c).r.toNat : Int) = ((a.toNat : Int) - m.toNat - (1 - bit c)) % 256 := by
  have hm := m.isLt
  rw [sbcBin, toNat_r_adcBin, toNat_xor_ones]
  omega

theorem c_sbcBin (a m : Byte) (c : Bool) : (sbcBin a m c).c = decide (0 ≤ (a.toNat : Int) - m.toNat - (1 - bit c)) := by
  have hm := m.isLt
  rw [sbcBin, c_adcBin, toNat_xor_ones, decide_eq_decide]
  omega

theorem toInt_xor_ones (m : Byte) : (m ^^^ 0xFF).toInt = -1 - m.toInt := by
  have hm := m.isLt
  rw [toInt_eq_sub_sign, toInt_eq_sub_sign, toNat_xor_ones]
  split <;> split <;> omega

theorem v_sbcBin (a m : Byte) (c : Bool) :
    (sbcBin a m c).v =
      decide (a.toInt - m.toInt - (1 - bit c) < -128 ∨ 127 < a.toInt - m.toInt - (1 - bit c)) := by
  rw [sbcBin, v_adcBin, toInt_xor_ones, decide_eq_decide]
  omega

/-- Settles O36, from the addition of the complement. -/
theorem binarySubtractionIsExact : Obligations.BinarySubtractionIsExact := by
  intro a m c
  exact ⟨rfl, toNat_r_sbcBin a m c, c_sbcBin a m c, v_sbcBin a m c, z_adcBin _ _ _, n_adcBin _ _ _⟩

/-! ### Decimal -/

theorem lowDigit_eq_and (v : Byte) : lowDigit v = v.toNat &&& 0x0F := (Nat.and_two_pow_sub_one_eq_mod v.toNat 4).symm

theorem highPart_eq_and (v : Byte) : highPart v = v.toNat &&& 0xF0 := by
  revert v
  decide

theorem adcDecLow_eq_and (a m : Byte) (c : Bool) :
    adcDecLow a m c =
      if 0x0A ≤ (a.toNat &&& 0x0F) + (m.toNat &&& 0x0F) + bit c then
        (((a.toNat &&& 0x0F) + (m.toNat &&& 0x0F) + bit c + 0x06) &&& 0x0F) + 0x10
      else (a.toNat &&& 0x0F) + (m.toNat &&& 0x0F) + bit c := by
  have digit (n : Nat) : n &&& 0x0F = n % 16 := Nat.and_two_pow_sub_one_eq_mod n 4
  simp only [digit]
  rfl

theorem sbcDecLow_eq_and (a m : Byte) (c : Bool) :
    sbcDecLow a m c = ((a.toNat &&& 0x0F : Nat) : Int) - ((m.toNat &&& 0x0F : Nat) : Int) + bit c - 1 := by
  rw [sbcDecLow, lowDigit_eq_and, lowDigit_eq_and]
  rfl

theorem toNat_ofInt_byte (t : Int) : ((BitVec.ofInt 8 t).toNat : Int) = t % 256 := by
  rw [BitVec.toNat_ofInt]
  omega

/-- Settles O37: the digits are the masks of the rule, and the flags are read from the numbers it names. -/
theorem decimalAdditionFollowsTheAlgorithm : Obligations.DecimalAdditionFollowsTheAlgorithm := by
  intro a m c v
  dsimp only
  rw [← adcDecLow_eq_and, ← highPart_eq_and, ← highPart_eq_and]
  refine ⟨BitVec.toNat_ofNat _ _, rfl, overflow_ofNat_eq_decide a m _, ?_, ?_⟩
  · cases v with
    | nmos => rfl
    | cmos => exact (beq_zero_eq_decide _).trans (by rw [BitVec.toNat_ofNat])
  · cases v with
    | nmos => exact bit7_ofNat _
    | cmos => exact (bit7_eq_decide _).trans (by rw [BitVec.toNat_ofNat])

/-- Settles O38: the low difference is that of the masks, `&&& 0x0F` of a negative number its residue, and the flags taken over from
the binary subtraction are its own. -/
theorem decimalSubtractionFollowsTheAlgorithm : Obligations.DecimalSubtractionFollowsTheAlgorithm := by
  intro a m c
  dsimp only
  rw [← sbcDecLow_eq_and, ← highPart_eq_and, ← highPart_eq_and]
  refine ⟨⟨toNat_ofInt_byte _, rfl, rfl, rfl, rfl⟩, toNat_ofInt_byte _, rfl, rfl, ?_, ?_⟩
  · refine (beq_zero_eq_decide _).trans ?_
    rw [← toNat_ofInt_byte, decide_eq_decide]
    exact Int.natCast_eq_zero.symm
  · refine (bit7_eq_decide _).trans ?_
    rw [← toNat_ofInt_byte, decide_eq_decide]
    exact Int.ofNat_le.symm

/-! ### Packed decimal

On valid digits every adjust turns a carry or borrow between digits of 16 into one between digits of 10: the adjusted number is the
decimal one written with its hundreds above the packed byte, `packed`. -/

/-- The two last decimal digits of a number as a packed byte, the hundreds as a multiple of 256. -/
def packed (n : Int) : Int := 256 * (n / 100) + 16 * (n % 100 / 10) + n % 10

theorem ofInt_packed (n : Int) : BitVec.ofInt 8 (packed n) = bcd (n % 100).toNat := by
  apply BitVec.eq_of_toNat_eq
  rw [BitVec.toNat_ofInt, bcd, BitVec.toNat_ofNat, packed]
  omega

section

variable {a m : Byte} (c : Bool) (ha : isBcd a) (hm : isBcd m)

include ha hm

/-- The sum after both adjusts (R182). -/
theorem adcDec_adjusted_eq_packed :
    let t := highPart a + highPart m + adcDecLow a m c
    ((if 0xA0 ≤ t then t + 0x60 else t : Nat) : Int) = packed (dec a + dec m + bit c : Nat) := by
  have hc := bit_le_one c
  obtain ⟨hal, hah⟩ := ha
  obtain ⟨hml, hmh⟩ := hm
  have low : adcDecLow a m c =
      a.toNat % 16 + m.toNat % 16 + bit c + if 0x0A ≤ a.toNat % 16 + m.toNat % 16 + bit c then 6 else 0 := by
    rw [adcDecLow, lowDigit, lowDigit, bitNat_eq_bit]
    split <;> omega
  dsimp only
  rw [low, highPart, highPart, packed, dec, dec]
  split <;> split <;> omega

/-- The difference after both adjusts under `NMOS` (R183). -/
theorem sbcDecNmos_eq_packed : sbcDecNmos a m c = BitVec.ofInt 8 (packed ((dec a : Int) - dec m - (1 - bit c))) := by
  have hc := bit_le_one c
  obtain ⟨hal, hah⟩ := ha
  obtain ⟨hml, hmh⟩ := hm
  refine congrArg (BitVec.ofInt 8) ?_
  rw [packed, sbcDecLow, lowDigit, lowDigit, highPart, highPart, dec, dec, bitNat_eq_bit]
  split <;> split <;> omega

/-- The difference after both adjusts under `CMOS` (R183). -/
theorem sbcDecCmos_eq_packed : sbcDecCmos a m c = BitVec.ofInt 8 (packed ((dec a : Int) - dec m - (1 - bit c))) := by
  have hc := bit_le_one c
  obtain ⟨hal, hah⟩ := ha
  obtain ⟨hml, hmh⟩ := hm
  refine congrArg (BitVec.ofInt 8) ?_
  rw [packed, sbcDecLow, lowDigit, lowDigit, dec, dec, bitNat_eq_bit]
  split <;> split <;> omega

/-- A packed difference is negative when the difference of the bytes is (R181, R183). -/
theorem sub_nonneg_iff_dec_sub_nonneg :
    0 ≤ (a.toNat : Int) - m.toNat - (1 - bit c) ↔ 0 ≤ (dec a : Int) - dec m - (1 - bit c) := by
  have hc := bit_le_one c
  obtain ⟨hal, hah⟩ := ha
  obtain ⟨hml, hmh⟩ := hm
  rw [dec, dec]
  omega

end

theorem c_sbcDec (a m : Byte) (c : Bool) (v : Variant) : (sbcDec a m c v).c = (sbcBin a m c).c := by
  cases v <;> rfl

/-- Settles O39: both variants leave the packed decimal number, whose hundreds are the carry. -/
theorem decimalArithmeticIsTrueOnValidDigits : Obligations.DecimalArithmeticIsTrueOnValidDigits := by
  intro a m c v ha hm
  have sum := adcDec_adjusted_eq_packed c ha hm
  have hc := bit_le_one c
  refine ⟨?_, ?_, ?_, ?_⟩
  · simp only [adcDec]
    rw [← BitVec.ofInt_natCast, sum, ofInt_packed]
    rfl
  · simp only [adcDec]
    rw [decide_eq_decide, ← Int.ofNat_le, sum, packed]
    omega
  · cases v with
    | nmos => exact (sbcDecNmos_eq_packed c ha hm).trans (ofInt_packed _)
    | cmos => exact (sbcDecCmos_eq_packed c ha hm).trans (ofInt_packed _)
  · rw [c_sbcDec, c_sbcBin, decide_eq_decide]
    exact sub_nonneg_iff_dec_sub_nonneg c ha hm

end Sys2Proof.Machine

/-! ## The arithmetic, logic, compare and bit-test instructions (R185 to R195)

The effect of each shape of instruction is said once, over what the shape's own functions give; an instruction is then that shape
with the functions of its rule. -/

namespace Sys2Proof.Machine

open Sys2Proof.Claim

/-! ### Encodings -/

theorem zpAbsCoded {both : Bool} {mk : ZpAbs → Instr} {zp abs : Byte} (hvalid : ∀ m, (mk m).opcode ≠ .invalid)
    (hcmos : ∀ m, (mk m).cmosOnly = !both) (hcode : ∀ m, encode (mk m) = m.pick zp abs :: m.addr.bytes) :
    ZpAbsCoded both mk zp abs := fun _ _ _ =>
  ⟨coded (hvalid _) (hcmos _) (hcode _), coded_cat (hvalid _) (hcmos _) (hcode _)⟩

/-! ### The shapes of instruction -/

theorem regs_setSr (s : State) (f : Flags) : regs (s.setSr f) = { regs s with sr := f } := rfl

theorem regs_setAc (s : State) (v : Byte) : regs (s.setAc v) = { regs s with ac := v } := rfl

theorem regs_write (s : State) (a : Addr) (v : Byte) : regs (s.write a v) = regs s := rfl

/-- Every instruction that writes the flags and stores nothing else. -/
theorem effect_of_complete_setSr {i : Instr} {s : State} (f : Flags)
    (h : exec i s = complete i s false ((s.pastOperands i).setSr f)) :
    Effect i s { regs s with pc := nextPc s i, sr := f } s.read := by
  refine ⟨_, h, ?_, fun _ => rfl⟩
  rw [regs_completed, regs_setSr, regs_pastOperands]

/-- An addition or subtraction `f`, whose operands are `AC`, the operand and `C` (R185, R186). -/
theorem effect_of_addInto {i : Instr} {s : State} {f : Byte → Byte → Bool → AluResult} {src : Src AddrMode}
    (h : exec i s = addInto i f src s) :
    let q := f s.ac (operandOf s i src) s.sr.c
    Effect i s
      { regs s with
        pc := nextPc s i, ac := q.r, sr := { s.sr with c := q.c, v := q.v, z := q.z, n := q.n } } s.read := by
  refine ⟨_, h, ?_, fun _ => rfl⟩
  rw [regs_completed, regs_setSr, regs_setAc, regs_pastOperands]
  rfl

/-- A test that changes memory: `Z` from the old byte at `EA`, then one byte stored there (R194, R195). -/
theorem effect_of_testAndWrite {i : Instr} {s : State} {f : Byte → Byte → Byte} {a : AddrMode}
    (h : exec i s = testAndWrite i f a s) :
    let m := s.read (eaOf s i a)
    Effect i s { regs s with pc := nextPc s i, sr := { s.sr with z := decide (s.ac &&& m = 0) } }
      (poke s.read (eaOf s i a) (f m s.ac)) := by
  refine ⟨_, h, ?_, fun b => State.read_write _ (eaOf s i a) b _⟩
  rw [regs_completed, regs_write, regs_setSr, regs_pastOperands]
  rfl

/-! ### Add and subtract -/

/-- What the resolver finds does not depend on the flags. -/
theorem State.pageCrossed_setSr (s : State) (f : Flags) (o : Operand) : (s.setSr f).pageCrossed o = s.pageCrossed o := by
  cases o with
  | mem a => cases a <;> rfl
  | _ => rfl

/-- Decimal mode adds one cycle to `ADC` and `SBC` under `CMOS` (R353). -/
theorem State.cost_decimal {i : Instr} (hop : i.opcode = .adc ∨ i.opcode = .sbc) (s : State) (k : Bool) :
    (s.setSr { s.sr with d := true }).cost i k =
      (s.setSr { s.sr with d := false }).cost i k + if s.variant = .cmos then 1 else 0 := by
  have past (f : Flags) : (s.setSr f).pastOperands i = (s.pastOperands i).setSr f := rfl
  have arith : (i.opcode == .adc || i.opcode == .sbc) = true := by simpa using hop
  simp only [State.cost, cycleCost, past, State.pageCrossed_setSr, State.variant_setSr, State.sr_setSr, arith]
  cases s.variant <;> rfl

/-- Settles O40: both are the shape `addInto` with the function that `D` selects. -/
theorem addAndSubtractInstructions : Obligations.AddAndSubtractInstructions := by
  refine ⟨accCoded (fun _ => nofun) (fun _ => rfl) (fun _ => rfl) (fun _ => rfl),
    accCoded (fun _ => nofun) (fun _ => rfl) (fun _ => rfl) (fun _ => rfl), fun src s => ?_, fun src s => ?_, fun src s k =>
    ⟨s.cost_decimal (i := .adc src) (.inl rfl) k, s.cost_decimal (i := .sbc src) (.inr rfl) k⟩⟩
  · exact effect_of_addInto (f := adcResult s.variant s.sr.d) rfl
  · exact effect_of_addInto (f := sbcResult s.variant s.sr.d) rfl

/-! ### Logic -/

/-- Settles O41: each puts its bitwise result in `AC`. -/
theorem logicInstructions : Obligations.LogicInstructions := by
  refine ⟨accCoded (fun _ => nofun) (fun _ => rfl) (fun _ => rfl) (fun _ => rfl),
    accCoded (fun _ => nofun) (fun _ => rfl) (fun _ => rfl) (fun _ => rfl),
    accCoded (fun _ => nofun) (fun _ => rfl) (fun _ => rfl) (fun _ => rfl), fun src s => ⟨?_, ?_, ?_⟩⟩
  · exact effect_of_complete_putReg .ac (s.ac &&& operandOf s (.and src) _) rfl
  · exact effect_of_complete_putReg .ac (s.ac ||| operandOf s (.ora src) _) rfl
  · exact effect_of_complete_putReg .ac (s.ac ^^^ operandOf s (.eor src) _) rfl

/-! ### Compare -/

/-- The flags of a comparison on numbers; `N` is the sign of the residue, not of the difference (R184). -/
theorem Flags.withCompare_eq (f : Flags) (reg m : Byte) :
    f.withCompare reg m =
      { f with
        c := decide (m.toNat ≤ reg.toNat), z := decide (reg = m)
        n := decide (128 ≤ ((reg.toNat : Int) - m.toNat) % 256) } := by
  have sign : bit7 (reg - m) = decide (128 ≤ ((reg.toNat : Int) - m.toNat) % 256) := by
    have hr := reg.isLt
    have hm := m.isLt
    rw [bit7_eq_decide, BitVec.toNat_sub, decide_eq_decide]
    omega
  rw [Flags.withCompare, sign]
  rfl

/-- Every comparison of the byte `reg` with the operand. -/
theorem effect_of_compare {i : Instr} {s : State} (reg m : Byte)
    (h : exec i s = complete i s false ((s.pastOperands i).setSr (s.sr.withCompare reg m))) :
    Effect i s
      { regs s with
        pc := nextPc s i
        sr := { s.sr with
          c := decide (m.toNat ≤ reg.toNat), z := decide (reg = m)
          n := decide (128 ≤ ((reg.toNat : Int) - m.toNat) % 256) } } s.read := by
  rw [← Flags.withCompare_eq]
  exact effect_of_complete_setSr _ h

/-- Settles O42: the three differ in the register only. -/
theorem compareInstructions : Obligations.CompareInstructions := by
  refine ⟨accCoded (fun _ => nofun) (fun _ => rfl) (fun _ => rfl) (fun _ => rfl),
    fun b => ⟨coded nofun rfl rfl, coded nofun rfl rfl⟩, zpAbsCoded (fun _ => nofun) (fun _ => rfl) (fun _ => rfl),
    zpAbsCoded (fun _ => nofun) (fun _ => rfl) (fun _ => rfl), fun src s => ?_, fun src s => ?_, fun src s => ?_⟩
  · exact effect_of_compare s.ac (operandOf s (.cmp src) _) rfl
  · exact effect_of_compare s.x (operandOf s (.cpx src) _) rfl
  · exact effect_of_compare s.y (operandOf s (.cpy src) _) rfl

/-! ### Bit tests -/

/-- Settles O43: the immediate form writes `Z` alone. -/
theorem bitTestInstruction : Obligations.BitTestInstruction := by
  refine ⟨fun b => coded nofun rfl rfl, xMemCoded (fun _ => nofun) (fun m => by cases m <;> rfl) (fun _ => rfl),
    fun b s => ?_, fun x s => ?_⟩
  · exact effect_of_complete_setSr (i := .bit (.imm b)) (s.sr.withBit true s.ac b) rfl
  · exact effect_of_complete_setSr (i := .bit (.mem x)) (s.sr.withBit false s.ac (s.read (eaOf s (.bit (.mem x)) x.addr))) rfl

/-- Settles O44: what is stored is the old byte with the bits of `AC` cleared, `AC` complemented as R181 does it, or set. -/
theorem testAndSetInstructions : Obligations.TestAndSetInstructions := by
  refine ⟨zpAbsCoded (fun _ => nofun) (fun _ => rfl) (fun _ => rfl), zpAbsCoded (fun _ => nofun) (fun _ => rfl) (fun _ => rfl),
    fun x s => ⟨?_, ?_⟩⟩
  · dsimp only
    rw [← xor_ones_eq_not]
    exact effect_of_testAndWrite (f := fun b a => b &&& (a ^^^ 0xFF)) rfl
  · exact effect_of_testAndWrite (f := fun b a => b ||| a) rfl

end Sys2Proof.Machine

/-! ## The increment, decrement, shift and rotate instructions (R210 to R221)

The memory forms of both shapes end with one byte stored at `EA` and the flags written, and the accumulator form of `INC` and `DEC`
is the shape of the index registers with `AC`; so each effect is said once, and an instruction adds its byte function. -/

namespace Sys2Proof

open Sys2Proof.Claim

/-! ### Encodings -/

theorem rmwCoded {both : Bool} {mk : Rmw XMem → Instr} {acc zp zpx abs abx : Byte} (hvalid : ∀ dst, (mk dst).opcode ≠ .invalid)
    (hacc : (mk .acc).cmosOnly = !both) (hmem : ∀ m, (mk (.mem m)).cmosOnly = false) (hcode : encode (mk .acc) = [acc])
    (hcodeMem : ∀ m, encode (mk (.mem m)) = m.pick zp zpx abs abx :: m.addr.bytes) : RmwCoded both mk acc zp zpx abs abx :=
  ⟨coded (hvalid _) hacc hcode, xMemCoded (fun _ => hvalid _) (fun m => (hmem m).trans (by cases m <;> rfl)) hcodeMem⟩

/-! ### Bytes as numbers -/

theorem bit0_eq_decide (v : Byte) : bit0 v = decide (v.toNat % 2 = 1) := Nat.testBit_zero v.toNat

theorem add_one_eq_ofNat (v : Byte) : v + 1 = BitVec.ofNat 8 (v.toNat + 1) :=
  BitVec.eq_of_toNat_eq (by simp)

/-- Adding 255 is subtracting 1 modulo 256. -/
theorem add_ones_eq_ofInt (v : Byte) : v + 0xFF = BitVec.ofInt 8 (v.toNat - 1) := by
  apply BitVec.eq_of_toNat_eq
  have residue := Machine.toNat_ofInt_byte (v.toNat - 1)
  have sum : (v + 0xFF).toNat = (v.toNat + 255) % 256 := BitVec.toNat_add v 255
  omega

end Sys2Proof

namespace Sys2Proof.Machine

open Sys2Proof.Claim

/-! ### The one-bit shifts -/

theorem toNat_r_aslByte (v : Byte) : (aslByte v).r.toNat = 2 * v.toNat % 256 := by
  rw [aslByte, BitVec.toNat_shiftLeft, Nat.shiftLeft_eq, Nat.mul_comm]

theorem toNat_r_lsrByte (v : Byte) : (lsrByte v).r.toNat = v.toNat / 2 := by
  rw [lsrByte, BitVec.toNat_ushiftRight, Nat.shiftRight_eq_div_pow]

/-- The carry comes in where the shift left a 0, so the bitwise or adds it. -/
theorem toNat_r_rolByte (v : Byte) (cin : Bool) : (rolByte v cin).r.toNat = 2 * v.toNat % 256 + bit cin := by
  have split : (rolByte v cin).r.toNat = (aslByte v).r.toNat ||| bit cin := by
    cases cin <;> exact BitVec.toNat_or ..
  have even : 2 * v.toNat % 256 = 2 ^ 1 * (v.toNat % 128) := by omega
  rw [split, toNat_r_aslByte, even, Nat.two_pow_add_eq_or_of_lt (Nat.lt_succ_of_le (bit_le_one cin))]

theorem toNat_r_rorByte (v : Byte) (cin : Bool) : (rorByte v cin).r.toNat = v.toNat / 2 + 128 * bit cin := by
  have split : (rorByte v cin).r.toNat = (lsrByte v).r.toNat ||| 2 ^ 7 * bit cin := by
    cases cin <;> exact BitVec.toNat_or ..
  have low : v.toNat / 2 < 2 ^ 7 := by omega
  rw [split, toNat_r_lsrByte, Nat.lor_comm, ← Nat.two_pow_add_eq_or_of_lt low, Nat.add_comm]

/-- Settles O47: the results by the lemmas above, the bits shifted out as remainders and bounds. -/
theorem shiftFunctionsMoveOneBit : Obligations.ShiftFunctionsMoveOneBit := fun v cin =>
  ⟨toNat_r_aslByte v, bit7_eq_decide v, toNat_r_lsrByte v, bit0_eq_decide v, toNat_r_rolByte v cin, bit7_eq_decide v,
    toNat_r_rorByte v cin, bit0_eq_decide v⟩

/-! ### The shapes of instruction -/

/-- Every instruction that stores one byte at `EA` and writes the flags. -/
theorem effect_of_complete_write_setSr {i : Instr} {s : State} {ea : Addr} {v : Byte} {f : Flags}
    (h : exec i s = complete i s false (((s.pastOperands i).write ea v).setSr f)) :
    Effect i s { regs s with pc := nextPc s i, sr := f } (poke s.read ea v) := by
  refine ⟨_, h, ?_, fun b => State.read_write _ ea b v⟩
  rw [regs_completed, regs_setSr, regs_write, regs_pastOperands]

/-- An increment or decrement of a data register. -/
theorem effect_of_addToReg {i : Instr} {s : State} {delta v : Byte} (r : DataReg) (h : exec i s = addToReg i delta r s)
    (hv : s.getReg r + delta = v) : Effect i s { (regs s).put r v with pc := nextPc s i, sr := zn s.sr v } s.read := by
  subst hv
  refine effect_of_complete_putReg r _ (h.trans ?_)
  cases r <;> rfl

/-- An increment or decrement of memory. -/
theorem effect_of_addToTarget_mem {i : Instr} {s : State} {delta v : Byte} {a : AddrMode}
    (h : exec i s = addToTarget i delta (.mem a) s) (hv : s.read (eaOf s i a) + delta = v) :
    Effect i s { regs s with pc := nextPc s i, sr := zn s.sr v } (poke s.read (eaOf s i a) v) := by
  subst hv
  rw [← Flags.updateZeroNegative_eq_zn]
  exact effect_of_complete_write_setSr h

theorem Flags.withShift_eq (f : Flags) (q : ShiftResult) : f.withShift q = { zn f q.r with c := q.out } := by
  rw [Flags.withShift, Flags.updateZeroNegative_eq_zn]
  rfl

/-- A shift or rotate of `AC`. -/
theorem effect_of_shiftTarget_acc {i : Instr} {s : State} {f : Byte → Bool → ShiftResult}
    (h : exec i s = shiftTarget i f .acc s) :
    let q := f s.ac s.sr.c
    Effect i s { regs s with pc := nextPc s i, ac := q.r, sr := { zn s.sr q.r with c := q.out } } s.read := by
  refine ⟨_, h, ?_, fun _ => rfl⟩
  rw [← Flags.withShift_eq, regs_completed, regs_setSr, State.writeTarget, regs_setAc, regs_pastOperands]
  rfl

/-- A shift or rotate of memory. -/
theorem effect_of_shiftTarget_mem {i : Instr} {s : State} {f : Byte → Bool → ShiftResult} {a : AddrMode}
    (h : exec i s = shiftTarget i f (.mem a) s) :
    let q := f (s.read (eaOf s i a)) s.sr.c
    Effect i s { regs s with pc := nextPc s i, sr := { zn s.sr q.r with c := q.out } } (poke s.read (eaOf s i a) q.r) := by
  dsimp only
  rw [← Flags.withShift_eq]
  exact effect_of_complete_write_setSr h

/-! ### Increment and decrement -/

/-- Settles O45: the two add 1 and 255. -/
theorem incrementAndDecrementInstructions : Obligations.IncrementAndDecrementInstructions := by
  refine ⟨rmwCoded (fun _ => nofun) rfl (fun _ => rfl) rfl (fun _ => rfl),
    rmwCoded (fun _ => nofun) rfl (fun _ => rfl) rfl (fun _ => rfl), fun s => ⟨?_, ?_⟩, fun x s => ⟨?_, ?_⟩⟩
  · exact effect_of_addToReg .ac rfl (add_one_eq_ofNat s.ac)
  · exact effect_of_addToReg .ac rfl (add_ones_eq_ofInt s.ac)
  · exact effect_of_addToTarget_mem rfl (add_one_eq_ofNat _)
  · exact effect_of_addToTarget_mem rfl (add_ones_eq_ofInt _)

/-- Settles O46: the shape `addToReg` with 1 and 255. -/
theorem indexIncrementAndDecrement : Obligations.IndexIncrementAndDecrement := by
  refine ⟨coded nofun rfl rfl, coded nofun rfl rfl, coded nofun rfl rfl, coded nofun rfl rfl, fun s => ⟨?_, ?_, ?_, ?_⟩⟩
  · exact effect_of_addToReg .x rfl (add_one_eq_ofNat s.x)
  · exact effect_of_addToReg .y rfl (add_one_eq_ofNat s.y)
  · exact effect_of_addToReg .x rfl (add_ones_eq_ofInt s.x)
  · exact effect_of_addToReg .y rfl (add_ones_eq_ofInt s.y)

/-! ### Shift and rotate -/

/-- An instruction that stores at `ea` and writes only `PC` and flags keeps `AC` and every other byte (R221). -/
theorem frame_of_effect_poke {i : Instr} {s : State} {p ea : Addr} {f : Flags} {v : Byte}
    (h : Effect i s { regs s with pc := p, sr := f } (poke s.read ea v)) :
    ∃ t, exec i s = .next t ∧ t.ac = s.ac ∧ ∀ a, a ≠ ea → t.read a = s.read a := by
  obtain ⟨t, ht, hregs, hread⟩ := h
  exact ⟨t, ht, congrArg Regs.ac hregs, fun a ha => (hread a).trans (if_neg ha)⟩

/-- Settles O48: the four are the shape `shiftTarget` with their function; the frame of `INC` and `DEC` is by O45, and the penalty
is read from the opcode table, form by form. -/
theorem shiftInstructions : Obligations.ShiftInstructions := by
  refine ⟨rmwCoded (fun _ => nofun) rfl (fun _ => rfl) rfl (fun _ => rfl),
    rmwCoded (fun _ => nofun) rfl (fun _ => rfl) rfl (fun _ => rfl),
    rmwCoded (fun _ => nofun) rfl (fun _ => rfl) rfl (fun _ => rfl),
    rmwCoded (fun _ => nofun) rfl (fun _ => rfl) rfl (fun _ => rfl), fun s => ⟨?_, ?_, ?_, ?_⟩, fun x s => ⟨?_, ?_, ?_, ?_⟩,
    fun x => by cases x <;> exact ⟨rfl, rfl, rfl, rfl, rfl, rfl⟩, fun x s a => ?_⟩
  · exact effect_of_shiftTarget_acc (f := fun v _ => aslByte v) rfl
  · exact effect_of_shiftTarget_acc (f := fun v _ => lsrByte v) rfl
  · exact effect_of_shiftTarget_acc (f := rolByte) rfl
  · exact effect_of_shiftTarget_acc (f := rorByte) rfl
  · exact effect_of_shiftTarget_mem (f := fun v _ => aslByte v) rfl
  · exact effect_of_shiftTarget_mem (f := fun v _ => lsrByte v) rfl
  · exact effect_of_shiftTarget_mem (f := rolByte) rfl
  · exact effect_of_shiftTarget_mem (f := rorByte) rfl
  · obtain ⟨-, -, -, memory⟩ := incrementAndDecrementInstructions
    obtain ⟨incEffect, decEffect⟩ := memory x s
    obtain ⟨t, ht, htAc, htRead⟩ := frame_of_effect_poke incEffect
    obtain ⟨u, hu, huAc, huRead⟩ := frame_of_effect_poke decEffect
    exact ⟨t, u, ht, hu, htAc, huAc, htRead a, huRead a⟩

end Sys2Proof.Machine

/-! ## Branches, jumps, calls and returns (R240 to R254)

The effect and the cost of the shape `branch` are said once for the nine conditions. The call and the return are said in the words
of the stack, `State.pushAddr` and `State.pullAddr`; that a return undoes a call is then that two pulls give back the address that
two pushes stored. -/

namespace Sys2Proof

open Sys2Proof.Claim

/-! ### Words and their bytes as numbers -/

theorem cat_eq_ofNat (h l : Byte) : cat h l = BitVec.ofNat 16 (256 * h.toNat + l.toNat) := by
  rw [← toNat_cat_mul_left, BitVec.ofNat_toNat, BitVec.setWidth_eq]

theorem cat_add_one_eq_ofNat (h l : Byte) : cat h l + 1 = BitVec.ofNat 16 (256 * h.toNat + l.toNat + 1) := by
  rw [BitVec.ofNat_add _ 1, cat_eq_ofNat]
  rfl

theorem hi_eq_ofNat (w : Addr) : hi w = BitVec.ofNat 8 (w.toNat / 256) := by
  rw [← toNat_hi, BitVec.ofNat_toNat, BitVec.setWidth_eq]

theorem lo_eq_ofNat (w : Addr) : lo w = BitVec.ofNat 8 (w.toNat % 256) := by
  rw [← toNat_lo, BitVec.ofNat_toNat, BitVec.setWidth_eq]

end Sys2Proof

namespace Sys2Proof.Machine

open Sys2Proof.Claim

/-! ### Branches -/

section

variable {i : Instr} {d : Byte} (hoperand : i.operand = .mem (.rel d))
include hoperand

theorem mode_eq_rel_of_operand : i.mode = .rel := by
  rw [Instr.mode, hoperand]
  rfl

/-- Only the branches are relative (R81). -/
theorem mem_branchClass_of_operand_rel : i.opcode ∈ branchClass := by
  by_contra h
  exact Instr.mode_ne_rel h (mode_eq_rel_of_operand hoperand)

/-- The next instruction is two bytes on (R81). -/
theorem pc_pastOperands_rel (s : State) : (s.pastOperands i).pc = s.pc + 2 := by
  rw [State.pc_pastOperands, Instr.length, hoperand]
  rfl

/-- A branch costs 2 cycles, one more when taken and another when taken into another page (R240, R351). -/
theorem State.cost_branch (s : State) (k : Bool) : s.cost i k = 2 + bitNat k + bitNat (k && crosses s i) := by
  have hclass := mem_branchClass_of_operand_rel hoperand
  obtain ⟨hbase, hpage⟩ := Instr.row_branch s.variant hclass
  have hadc : i.opcode ≠ .adc := ne_of_mem_of_not_mem hclass (by decide)
  have hsbc : i.opcode ≠ .sbc := ne_of_mem_of_not_mem hclass (by decide)
  simp [State.cost, cycleCost, hbase, hpage, mode_eq_rel_of_operand hoperand, hadc, hsbc, crosses_eq_pageCrossed, bitNat]

theorem branchEffect_of_branch {s : State} {cond : Bool} (h : exec i s = branch i d cond s) : BranchEffect i d cond s := by
  have next := pc_pastOperands_rel hoperand s
  have target := (s.pastOperands i).effectiveAddress_rel d
  rw [next] at target
  refine ⟨_, h, ?_, fun a => ?_, fun _ => ?_⟩
  · cases cond with
    | true => rw [← target]; rfl
    | false => rw [← next]; rfl
  · cases cond <;> rfl
  · rw [cyc_completed, State.cost_branch hoperand, crosses, hoperand]
    cases cond with
    | true =>
      simp only [bitNat, Bool.true_and, decide_eq_true_eq, ne_eq, ite_not, if_true]
      split <;> rfl
    | false => rfl

end

/-- Settles O49: the nine are the shape `branch` with their condition. -/
theorem branchInstructions : Obligations.BranchInstructions := by
  unfold Obligations.BranchInstructions
  simp only [Bool.decide_eq_false, Bool.decide_eq_true]
  refine ⟨fun d => ?_, fun d s => ?_⟩
  · refine ⟨?_, ?_, ?_, ?_, ?_, ?_, ?_, ?_, ?_⟩ <;> exact coded nofun rfl rfl
  · refine ⟨?_, ?_, ?_, ?_, ?_, ?_, ?_, ?_, ?_⟩ <;> exact branchEffect_of_branch rfl rfl

/-! ### Jumps -/

/-- Every instruction that writes `PC` alone. -/
theorem effect_of_complete_setPc {i : Instr} {s : State} (w : Addr)
    (h : exec i s = complete i s false ((s.pastOperands i).setPc w)) : Effect i s { regs s with pc := w } s.read :=
  ⟨_, h, rfl, fun _ => rfl⟩

/-- Settles O50: no mode of `JMP` is relative, so `EA` does not depend on where `PC` is. -/
theorem jumpInstruction : Obligations.JumpInstruction := by
  refine ⟨fun l h => ⟨coded_cat nofun rfl rfl, coded_cat nofun rfl rfl, coded_cat nofun rfl rfl⟩,
    fun w s => effect_of_complete_setPc w rfl, fun t s => effect_of_complete_setPc _ rfl,
    fun t s => s.effectiveAddress_pastOperands _ _ fun d => ?_⟩
  cases t <;> nofun

/-! ### Calls and returns -/

/-- A pulled address depends on `SP` and the bytes of memory only (R41). -/
theorem State.pullAddr_congr {s t : State} (hsp : s.sp = t.sp) (hread : ∀ a, s.read a = t.read a) :
    s.pullAddr = t.pullAddr := by
  simp only [State.pullAddr, State.pullByte, State.read_pulled, State.sp_pulled, hsp, hread]

/-- Two pulls return the address that was pushed (R251, R252). -/
theorem State.pullAddr_pushAddr (s : State) (w : Addr) : (s.pushAddr w).pullAddr = w := by
  have low : (s.pushAddr w).pullByte = lo w := State.pullByte_push _ _
  have high : (s.pushAddr w).pulled.pullByte = hi w := by
    have hsp : (s.pushAddr w).pulled.sp + 1 = s.sp := by simp
    have hne : s.sp ≠ s.sp - 1 := fun e => absurd (sub_eq_self.mp e.symm) (by decide)
    rw [State.pullByte, hsp, State.read_pulled, State.read_pushAddr, if_neg (stackAddr_inj.not.mpr hne), if_pos rfl]
  rw [State.pullAddr, low, high, cat_hi_lo]

/-- A call pushes the address of its own last byte (R251). -/
theorem effect_jsr (w : Addr) (s : State) :
    Effect (.jsr w) s { regs s with pc := w, sp := s.sp - 1 - 1 } (s.pushAddr (s.pc + 2)).read := by
  have lastByte : s.pc + 3 - 1 = s.pc + 2 := add_sub_assoc s.pc 3 1
  rw [← lastByte]
  exact ⟨_, rfl, rfl, fun _ => rfl⟩

/-- A return goes to the byte after the pulled address (R252). -/
theorem effect_rts (s : State) : Effect .rts s { regs s with pc := s.pullAddr + 1, sp := s.sp + 1 + 1 } s.read :=
  ⟨_, rfl, rfl, fun _ => rfl⟩

/-- Settles O51: the two bytes a call pushes are those of the return address, high byte first. -/
theorem callPushesTheAddressOfItsLastByte : Obligations.CallPushesTheAddressOfItsLastByte := by
  refine ⟨fun l h => coded_cat nofun rfl rfl, fun w s => ?_⟩
  have ret : (s.pc + 2).toNat = (s.pc.toNat + 2) % 65536 := BitVec.toNat_add s.pc 2
  have twice : s.sp - 1 - 1 = s.sp - 2 := BitVec.sub_sub s.sp 1 1
  obtain ⟨t, ht, hregs, hread⟩ := effect_jsr w s
  refine ⟨t, ht, hregs.trans (by rw [twice]), fun a => ?_⟩
  rw [← ret, ← hi_eq_ofNat, ← lo_eq_ofNat, page1_eq_stackAddr, page1_eq_stackAddr]
  exact (hread a).trans (State.read_pushAddr s (s.pc + 2) a)

/-- Settles O52: what the pulls return is at the stack addresses above `SP`, low byte first. -/
theorem returnInstructions : Obligations.ReturnInstructions := by
  refine ⟨coded nofun rfl rfl, coded nofun rfl rfl, fun s => ?_⟩
  have twice : s.sp + 2 = s.sp + 1 + 1 := (BitVec.add_assoc s.sp 1 1).symm
  have thrice : s.sp + 3 = s.sp + 1 + 1 + 1 := (BitVec.add_assoc s.sp 2 1).symm.trans (congrArg (· + 1) twice)
  simp only [page1_eq_stackAddr, ← cat_eq_ofNat, ← cat_add_one_eq_ofNat, twice, thrice]
  exact ⟨effect_rts s, _, rfl, rfl, fun _ => rfl⟩

/-- Settles O53: the return pulls the address that the call pushed, and the byte after it begins the next instruction. -/
theorem returnUndoesCall : Obligations.ReturnUndoesCall := by
  intro w s
  obtain ⟨t, ht, tregs, tread⟩ := effect_jsr w s
  obtain ⟨u, hu, uregs, uread⟩ := effect_rts t
  have tsp : t.sp = s.sp - 1 - 1 := congrArg Regs.sp tregs
  have pulled : t.pullAddr = s.pc + 2 := (State.pullAddr_congr tsp tread).trans (s.pullAddr_pushAddr _)
  have after : s.pc + 2 + 1 = s.pc + 3 := BitVec.add_assoc s.pc 2 1
  refine ⟨t, u, ht, hu, ?_, fun a hhigh hlow => ?_⟩
  · rw [uregs, tregs, pulled, after, tsp, BitVec.sub_add_cancel, BitVec.sub_add_cancel]
    rfl
  · rw [page1_eq_stackAddr] at hhigh hlow
    rw [uread, tread, State.read_pushAddr, if_neg hlow, if_neg hhigh]

end Sys2Proof.Machine

/-! ## The stack, flag and system instructions (R270 to R292, R316)

The effects of the shapes `pushByte`, `pullInto` and `writeFlag` and of an instruction that only moves `PC` are said once, and an
instruction adds its byte, register or flag. The effect of `BRK` is said in the words of the software interrupt,
`State.enterHandler`; its statement then follows by writing the pushed bytes and the vector as numbers. -/

namespace Sys2Proof.Machine

open Sys2Proof.Claim

/-! ### Registers after the stack operations -/

theorem regs_push (s : State) (v : Byte) : regs (s.push v) = { regs s with sp := s.sp - 1 } := rfl

theorem regs_pulled (s : State) : regs s.pulled = { regs s with sp := s.sp + 1 } := rfl

theorem regs_enterHandler (s : State) (ret : Addr) :
    regs (s.enterHandler ret) =
      { regs s with pc := s.read16 brkVector, sp := s.sp - 1 - 1 - 1, sr := handlerFlags s.variant s.sr } := by
  simp only [regs, State.pc_enterHandler, State.sr_enterHandler, State.sp_enterHandler, State.ac_enterHandler,
    State.x_enterHandler, State.y_enterHandler, State.variant_enterHandler]

/-! ### The status a handler sees and the status pushed -/

/-- Entering the handler sets `I` and, under `CMOS`, clears `D` (R290). -/
theorem handlerFlags_eq (v : Variant) (f : Flags) :
    handlerFlags v f = { f with i := true, d := if v = .cmos then false else f.d } := by
  cases v <;> rfl

/-- The byte `PHP` and `BRK` push, by O19. -/
theorem Flags.pushed_eq_ofNat (f : Flags) :
    f.pushed = BitVec.ofNat 8 (0x80 * bit f.n + 0x40 * bit f.v + 0x30 + 0x08 * bit f.d + 0x04 * bit f.i +
      0x02 * bit f.z + bit f.c) := by
  obtain ⟨-, -, toNat, -⟩ := statusBytePacksAndUnpacks.1 f
  rw [← toNat, BitVec.ofNat_toNat, BitVec.setWidth_eq]

/-! ### The shapes of instruction -/

theorem effect_of_pushByte {i : Instr} {s : State} {v : Byte} (h : exec i s = pushByte i v s) :
    Effect i s { regs s with pc := nextPc s i, sp := s.sp - 1 } (poke s.read (page1 s.sp) v) := by
  refine ⟨_, h, ?_, fun a => ?_⟩
  · rw [regs_completed, regs_push, regs_pastOperands]
    rfl
  · rw [page1_eq_stackAddr]
    exact State.read_push (s.pastOperands i) v a

/-- A pull into a data register: the byte above `SP`, with `Z` and `N` from it (R272, R276, R277). -/
theorem effect_of_pullInto {i : Instr} {s : State} (r : DataReg) (h : exec i s = pullInto i r s) :
    let v := s.read (page1 (s.sp + 1))
    Effect i s { (regs s).put r v with pc := nextPc s i, sp := s.sp + 1, sr := zn s.sr v } s.read := by
  intro v
  have pulled : (s.pastOperands i).pullByte = v := congrArg s.read (page1_eq_stackAddr (s.sp + 1)).symm
  refine ⟨_, h, ?_, fun a => by rw [read_completed, State.read_putReg, State.read_pulled, State.read_pastOperands]⟩
  rw [regs_completed, regs_putReg, regs_pulled, regs_pastOperands, pulled]
  cases r <;> rfl

theorem effect_of_writeFlag {i : Instr} {s : State} (f : Flag) (val : Bool) (h : exec i s = writeFlag i f val s) :
    Effect i s { regs s with pc := nextPc s i, sr := s.sr.set f val } s.read :=
  effect_of_complete_setSr (s.sr.set f val) h

/-- Every instruction that only moves `PC` past itself. -/
theorem effect_of_complete_pastOperands {i : Instr} {s : State} (h : exec i s = complete i s false (s.pastOperands i)) :
    Effect i s { regs s with pc := nextPc s i } s.read :=
  ⟨_, h, regs_pastOperands s i, fun _ => rfl⟩

/-- An instruction without additions ends with the cost of its class and mode added to `CYC` (R350, R351). -/
theorem exists_next_cyc_eq_baseOf {s : State} {i : Instr} (hwf : i.wellFormed s.variant = true) (hcross : crosses s i = false)
    (htaken : taken s i = false) (hadc : i.opcode ≠ .adc) (hsbc : i.opcode ≠ .sbc) :
    ∃ t, exec i s = .next t ∧ t.cyc = s.cyc + baseOf s.variant i.opcode i.mode := by
  obtain ⟨t, ht, hcyc, -⟩ := resultRecordAndCyclesFollowTheRules i s hwf
  exact ⟨t, ht, hcyc.trans (congrArg (s.cyc + ·) (ruleCycles_eq_baseOf hcross htaken hadc hsbc))⟩

/-! ### Pushes and pulls -/

/-- Settles O54: the four are the shape `pushByte`. -/
theorem pushInstructions : Obligations.PushInstructions := by
  refine ⟨coded nofun rfl rfl, coded nofun rfl rfl, coded nofun rfl rfl, coded nofun rfl rfl, fun s =>
    ⟨effect_of_pushByte rfl, ?_, effect_of_pushByte rfl, effect_of_pushByte rfl⟩⟩
  rw [← Flags.pushed_eq_ofNat]
  exact effect_of_pushByte rfl

/-- `PLP` takes the flags from the byte above `SP` alone (R273). -/
theorem effect_plp (s : State) :
    Effect .plp s
      { regs s with pc := s.pc + 1, sp := s.sp + 1, sr := Flags.unpack (s.read (page1 (s.sp + 1))) } s.read := by
  rw [page1_eq_stackAddr]
  exact ⟨_, rfl, rfl, fun _ => rfl⟩

/-- Settles O55: three are the shape `pullInto` with their register. -/
theorem pullInstructions : Obligations.PullInstructions := by
  refine ⟨coded nofun rfl rfl, coded nofun rfl rfl, coded nofun rfl rfl, coded nofun rfl rfl, fun s => ?_⟩
  exact ⟨effect_of_pullInto .ac rfl, effect_of_pullInto .x rfl, effect_of_pullInto .y rfl, effect_plp s⟩

/-! ### Flags -/

/-- Settles O56: the seven are the shape `writeFlag` with their flag and value. -/
theorem flagInstructions : Obligations.FlagInstructions := by
  refine ⟨coded nofun rfl rfl, coded nofun rfl rfl, coded nofun rfl rfl, coded nofun rfl rfl, coded nofun rfl rfl,
    coded nofun rfl rfl, coded nofun rfl rfl, fun s => ?_⟩
  exact ⟨effect_of_writeFlag .c false rfl, effect_of_writeFlag .c true rfl, effect_of_writeFlag .i false rfl,
    effect_of_writeFlag .i true rfl, effect_of_writeFlag .d false rfl, effect_of_writeFlag .d true rfl,
    effect_of_writeFlag .v false rfl⟩

/-! ### Break, no operation, invalid bytes -/

/-- `BRK` enters the handler with the address two bytes on as its return address (R290, R316). -/
theorem effect_brk (s : State) :
    Effect .brk s
      { regs s with pc := s.read16 brkVector, sp := s.sp - 1 - 1 - 1, sr := handlerFlags s.variant s.sr }
      (s.enterHandler (s.pc + 2)).read := by
  refine ⟨_, rfl, ?_, fun a => ?_⟩
  · rw [regs_completed, regs_enterHandler, regs_pastOperands]
    rfl
  · rw [read_completed, State.read_enterHandler, State.read_enterHandler]
    rfl

/-- Settles O57: the registers and bytes entering the handler leaves, as numbers; the cost by O26. -/
theorem breakEntersTheHandler : Obligations.BreakEntersTheHandler := by
  refine ⟨coded nofun rfl rfl, fun s => ⟨?_, exists_next_cyc_eq_baseOf (i := .brk) (Bool.or_true _) rfl rfl nofun nofun⟩⟩
  have ret : (s.pc + 2).toNat = (s.pc.toNat + 2) % 65536 := BitVec.toNat_add s.pc 2
  have twice : s.sp - 1 - 1 = s.sp - 2 := BitVec.sub_sub s.sp 1 1
  have thrice : s.sp - 2 - 1 = s.sp - 3 := BitVec.sub_sub s.sp 2 1
  have vector : s.read16 brkVector = BitVec.ofNat 16 (256 * (s.read 0xFFFF).toNat + (s.read 0xFFFE).toNat) :=
    cat_eq_ofNat _ _
  obtain ⟨t, ht, hregs, hread⟩ := effect_brk s
  refine ⟨t, ht, hregs.trans (by rw [vector, handlerFlags_eq, twice, thrice]), fun a => ?_⟩
  rw [hread, State.read_enterHandler, twice, Flags.pushed_eq_ofNat, lo_eq_ofNat, hi_eq_ofNat, ret]
  simp only [poke, page1_eq_stackAddr]

/-- Settles O59: both only move `PC`; the cost of `NOP` by O26, that of `INVALID` and its record from how every instruction ends. -/
theorem nopAndInvalidOnlyAdvance : Obligations.NopAndInvalidOnlyAdvance := by
  refine ⟨coded nofun rfl rfl, fun v b b1 b2 h => decodeInstr_of_validCode_eq_false h b1 b2, fun b => rfl,
    fun s => ⟨effect_of_complete_pastOperands rfl, exists_next_cyc_eq_baseOf (i := .nop) (Bool.or_true _) rfl rfl nofun nofun⟩,
    fun b s => ⟨effect_of_complete_pastOperands rfl, _, rfl, ?_, ?_⟩⟩
  · rw [cyc_completed, State.cost_invalid]
    rfl
  · rw [completed, State.out_setOut, State.cost_invalid]
    rfl

end Sys2Proof.Machine

/-! ## The return from a break (R317)

What the three pulls find in memory that `State.enterHandler` left is said first: the status, then the return address. -/

namespace Sys2Proof.Machine

open Sys2Proof.Claim

/-! ### Pulling what entering the handler pushed -/

/-- A pulled byte depends on `SP` and the bytes of memory only (R41). -/
theorem State.pullByte_congr {s t : State} (hsp : s.sp = t.sp) (hread : ∀ a, s.read a = t.read a) :
    s.pullByte = t.pullByte := by
  rw [State.pullByte, State.pullByte, hsp, hread]

theorem State.pullByte_enterHandler (s : State) (ret : Addr) : (s.enterHandler ret).pullByte = s.sr.pushed := by
  rw [State.pullByte, State.sp_enterHandler, BitVec.sub_add_cancel, State.read_enterHandler, if_pos rfl]

/-- Under the pushed status lies the return address: the three stack bytes are distinct, so each is read as it was pushed. -/
theorem State.pullAddr_pulled_enterHandler (s : State) (ret : Addr) : (s.enterHandler ret).pulled.pullAddr = ret := by
  have one : ∀ p : Byte, p ≠ p - 1 := fun p e => absurd (sub_eq_self.mp e.symm) (by decide)
  have two : s.sp ≠ s.sp - 1 - 1 := fun e => absurd (sub_eq_self.mp ((BitVec.sub_sub s.sp 1 1).symm.trans e.symm)) (by decide)
  have low : (s.enterHandler ret).pulled.pullByte = lo ret := by
    rw [State.pullByte, State.sp_pulled, State.sp_enterHandler, BitVec.sub_add_cancel, BitVec.sub_add_cancel, State.read_pulled,
      State.read_enterHandler, if_neg (stackAddr_inj.not.mpr (one _)), if_pos rfl]
  have high : (s.enterHandler ret).pulled.pulled.pullByte = hi ret := by
    rw [State.pullByte, State.sp_pulled, State.sp_pulled, State.sp_enterHandler, BitVec.sub_add_cancel, BitVec.sub_add_cancel,
      BitVec.sub_add_cancel, State.read_pulled, State.read_pulled, State.read_enterHandler, if_neg (stackAddr_inj.not.mpr two),
      if_neg (stackAddr_inj.not.mpr (one _)), if_pos rfl]
  rw [State.pullAddr, low, high, cat_hi_lo]

/-- The pushed status, taken literally, has `U` and `B` at 1 (R33, R34). -/
theorem Flags.unpack_pushed (f : Flags) : Flags.unpack f.pushed = { f with u := true, b := true } := by
  rw [Flags.pushed_eq_pack, Flags.unpack_pack]

/-! ### The return -/

/-- `RTI` pulls the status, then the address it goes to (R253, R317). -/
theorem effect_rti (s : State) :
    Effect .rti s { regs s with pc := s.pulled.pullAddr, sp := s.sp + 1 + 1 + 1, sr := Flags.unpack s.pullByte } s.read :=
  ⟨_, rfl, rfl, fun _ => rfl⟩

/-- Settles O58: `RTI` pulls the status and the address that `BRK` pushed, and changes no byte of memory. -/
theorem returnFromInterruptUndoesBreak : Obligations.ReturnFromInterruptUndoesBreak := by
  intro s
  obtain ⟨t, ht, tregs, tread⟩ := effect_brk s
  obtain ⟨u, hu, uregs, uread⟩ := effect_rti t
  have tsp : t.sp = s.sp - 1 - 1 - 1 := congrArg Regs.sp tregs
  have sameSp : t.sp = (s.enterHandler (s.pc + 2)).sp := tsp.trans (s.sp_enterHandler _).symm
  have status : t.pullByte = s.sr.pushed :=
    (State.pullByte_congr sameSp tread).trans (s.pullByte_enterHandler _)
  have address : t.pulled.pullAddr = s.pc + 2 := by
    rw [← s.pullAddr_pulled_enterHandler (s.pc + 2)]
    refine State.pullAddr_congr ?_ fun a => ?_
    · rw [State.sp_pulled, State.sp_pulled, sameSp]
    · rw [State.read_pulled, State.read_pulled, tread]
  have twice : s.sp - 1 - 1 = s.sp - 2 := BitVec.sub_sub s.sp 1 1
  refine ⟨t, u, ht, hu, ?_, fun a hhigh hlow hstatus => ?_⟩
  · rw [uregs, tregs, address, status, Flags.unpack_pushed, tsp, BitVec.sub_add_cancel, BitVec.sub_add_cancel,
      BitVec.sub_add_cancel]
    rfl
  · rw [page1_eq_stackAddr] at hhigh hlow hstatus
    rw [uread, tread, State.read_enterHandler, twice, if_neg hstatus, if_neg hlow, if_neg hhigh]

end Sys2Proof.Machine

/-! ## The operation reset (R340 to R343)

Of what it finds, reset keeps the parameter and the memory; `PC` it takes from the vector, and the rest is as in `State.reset`. -/

namespace Sys2Proof.Machine

open Sys2Proof.Claim

/-! ### The invariant -/

theorem State.wf_mem_of_inv {s : State} (h : s.inv = true) : Memory.wf s.mem = true := by
  rw [State.inv, Bool.and_eq_true] at h
  exact h.1

/-- With no result record, the invariant is that of the memory (R44, R68). -/
theorem State.inv_eq_wf_of_out_eq_none {s : State} (h : s.out = none) : s.inv = Memory.wf s.mem := by
  rw [State.inv, h]
  exact Bool.and_true _

/-- Settles O11: reset leaves no record, and the memory as it was. -/
theorem resetStateMeetsTheInvariant : Obligations.ResetStateMeetsTheInvariant := by
  refine ⟨?_, fun s hinv => ?_⟩
  · rw [State.inv_eq_wf_of_out_eq_none rfl]
    exact State.wf_mem_reset
  · rw [State.inv_eq_wf_of_out_eq_none rfl, State.mem_applyReset]
    exact State.wf_mem_of_inv hinv

/-! ### The vector -/

@[simp] theorem State.variant_applyReset (s : State) : s.applyReset.variant = s.variant := rfl

@[simp] theorem State.read_applyReset (s : State) (a : Addr) : s.applyReset.read a = s.read a := rfl

/-- `PC` is the little-endian word at the vector (R340). -/
theorem State.pc_applyReset (s : State) : s.applyReset.pc = cat (s.read 0xFFFD) (s.read 0xFFFC) := rfl

theorem State.regs_applyReset (s : State) :
    regs s.applyReset = { regs State.reset with variant := s.variant, pc := cat (s.read 0xFFFD) (s.read 0xFFFC) } := rfl

/-- Reset reads only what it keeps, so a second reset finds what the first did (R341). -/
theorem State.applyReset_applyReset (s : State) : s.applyReset.applyReset = s.applyReset := rfl

/-- The instruction after reset is fetched at the vector's address (R343). -/
theorem State.fetch_applyReset (s : State) :
    s.applyReset.fetch =
      let entry := cat (s.read 0xFFFD) (s.read 0xFFFC)
      decodeInstr s.variant (s.read entry) (s.read (entry + 1)) (s.read (entry + 2)) := by
  simp only [State.fetch, State.variant_applyReset, State.pc_applyReset, State.read_applyReset]

/-- Settles O13: the registers after reset name the two bytes of the vector and no other, and the step fetches at that address. -/
theorem resetDependsOnTheVectorAlone : Obligations.ResetDependsOnTheVectorAlone := by
  refine ⟨fun s t hvariant hlow hhigh => ⟨?_, rfl, rfl⟩, State.applyReset_applyReset, fun s => ?_⟩
  · rw [s.regs_applyReset, t.regs_applyReset, hvariant, hlow, hhigh]
  · rw [step_eq, s.fetch_applyReset]

end Sys2Proof.Machine
